-- ==== Sys2Proof/Word.lean ====
section
/-! DEFINITION. The word types of SRB-CORE: 16-bit host registers and command words, 8-bit samples and
transfer bytes, 5-bit register addresses, one-bit levels (00_scope.md R9, R10). -/

namespace Sys2Proof

/-- A command word or a host register: 16 bits, bit 0 least significant (R9, R10). -/
abbrev Word := BitVec 16

/-- A transfer byte, a sample or a change mask: 8 bits (R9). -/
abbrev Byte := BitVec 8

/-- A register address, `BUS_ADDR[4:0]` (R9, R47). -/
abbrev Addr := BitVec 5

/-- A logic level; `true` is 1, which is high on every pin (R10, R12). -/
abbrev Level := Bool

end Sys2Proof
end

