-- ==== Sys2Proof/Config.lean ====
section
/-! DEFINITION. The configuration record CFG (00_scope.md R7), its defaults, and the free values of the
environment agents (20_memory.md R59). -/

namespace Sys2Proof

/-- `P_POLICY[c]`: which transitions of a channel are events (R7, R96). -/
inductive EdgePolicy where
  | any
  | fall
deriving DecidableEq, Repr

/-- One monitored channel: its edge policy `P_POLICY[c]` and the width `P_W[c]` of its history (R7). -/
structure Chan where
  policy : EdgePolicy
  width : Nat
deriving DecidableEq, Repr

/-- A positive quantity, `(numPred + 1) / (denPred + 1)` of a unit: no value of this type is zero, and every
positive fraction of the unit is one (log 12). -/
structure PosRatio where
  numPred : Nat
  denPred : Nat
deriving DecidableEq, Repr

/-- The numerator of a positive quantity. -/
def PosRatio.num (r : PosRatio) : Nat := r.numPred + 1

/-- The denominator of a positive quantity. -/
def PosRatio.den (r : PosRatio) : Nat := r.denPred + 1

/-- The configuration record CFG of R7. Channel `c` is the `c`-th entry of `channels`, so `P_NCH` is the
length of that list. `tSettle` is `P_T_SETTLE`, "a positive duration", in seconds; it reaches the machine only
through `settleCycles` (`P_SETTLE_CYCLES`). -/
structure Cfg where
  csActive : Level
  tSettle : PosRatio
  settleCycles : Nat
  channels : List Chan
  mirrorEn : Bool
  mirrorSrc0 : Nat
  mirrorSrc1 : Nat
  syncStages : Nat
deriving DecidableEq, Repr

/-- `P_NCH`, the number of monitored channels (R7). -/
def Cfg.nch (cfg : Cfg) : Nat := cfg.channels.length

/-- The default configuration of R7; its `P_T_SETTLE` is 10 µs, 1/100000 of a second. -/
def Config.default : Cfg where
  csActive := false
  tSettle := ⟨0, 99999⟩
  settleCycles := 160
  channels := [⟨.any, 12⟩, ⟨.fall, 2⟩, ⟨.fall, 2⟩, ⟨.fall, 2⟩]
  mirrorEn := false
  mirrorSrc0 := 1
  mirrorSrc1 := 2
  syncStages := 2

/-- `ceil(P_T_SETTLE × f_CLK)`: the cycles that realise a hold of duration `t` in seconds at the clock
frequency `f` in hertz (R7, D8, D42). -/
def Config.settleCyclesFor (t f : PosRatio) : Nat := (t.num * f.num + t.den * f.den - 1) / (t.den * f.den)

/-- Free value: the level of `SPI_MISO` at the `n`-th draw that no listed level supplies (R59, I2, log 3).
DESIGN CHOICE in its form; nothing constrains it. -/
opaque Config.freeMiso : Nat → Level

/-- Free value: the levels of `TRK_IN[0..7]` at the `n`-th draw that no listed sample supplies (R59, I3, log 3).
DESIGN CHOICE in its form; nothing constrains it. -/
opaque Config.freeTrkIn : Nat → Byte

end Sys2Proof
end

