-- ==== Sys2Proof/Syntax.lean ====
section
/-! DEFINITION. The command set SRB-CMD, one constructor per row of spec/opcode_table.json
(30_encoding.md R71). -/

namespace Sys2Proof

/-- A command of SRB-CMD. The only operand of any command is the transmit byte of `SPI_XFER` (R70). -/
inductive Instr where
  | nop
  | spiInit
  | spiBegin
  | spiEnd
  | spiXfer (out : Byte)
  | trkInit
  | trkSample
  | trkDetect
  | trkApply
  | trkRender
  | trkPoll
deriving DecidableEq, Repr

end Sys2Proof
end

