-- ==== Sys2Proof/WellFormed.lean ====
section
/-! DEFINITION. The checks of the spec on terms: the well-formedness of a configuration (00_scope.md R8) and of
a command word (30_encoding.md R72). Every term of `Instr` is well formed: its only operand has the
eight bits of `IMM8` by its type. -/

namespace Sys2Proof

/-- The history width of every channel is in 1..16 (R8). -/
def Cfg.widthsOk (cfg : Cfg) : Bool := cfg.channels.all fun ch => decide (1 ≤ ch.width ∧ ch.width ≤ 16)

/-- Exactly one channel has the policy `ANY` (R8). -/
def Cfg.oneAny (cfg : Cfg) : Bool := (cfg.channels.countP fun ch => decide (ch.policy = .any)) == 1

/-- The configuration is well formed: all the clauses of R8, and no other. -/
def Cfg.wf (cfg : Cfg) : Bool :=
  decide (1 ≤ cfg.nch ∧ cfg.nch ≤ 8) && cfg.widthsOk && cfg.oneAny
    && decide (cfg.mirrorSrc0 < cfg.nch ∧ cfg.mirrorSrc1 < cfg.nch)
    && decide (1 ≤ cfg.settleCycles ∧ cfg.settleCycles ≤ 65535) && decide (cfg.syncStages ≤ 3)

/-- `P_SETTLE_CYCLES` realises `P_T_SETTLE` at the clock frequency `f` in hertz (R7, R46, D8). R8 does not ask
for it, so it is no part of `Cfg.wf` (log 12). -/
def Cfg.settleRealised (cfg : Cfg) (f : PosRatio) : Bool :=
  cfg.settleCycles == Config.settleCyclesFor cfg.tSettle f

/-- A row of spec/opcode_table.json: a word is an instance of the row when its bits under `mask` are those
of `pattern`. -/
structure OpcodeRow where
  mnemonic : String
  pattern : Word
  mask : Word
deriving DecidableEq, Repr

/-- The rows of spec/opcode_table.json, in the table's order. -/
def opcodeRows : List OpcodeRow :=
  [⟨"NOP", 0x0000#16, 0xFFFF#16⟩, ⟨"SPI_INIT", 0x0001#16, 0xFFFF#16⟩, ⟨"SPI_BEGIN", 0x0002#16, 0xFFFF#16⟩,
   ⟨"SPI_END", 0x0003#16, 0xFFFF#16⟩, ⟨"SPI_XFER", 0x0004#16, 0x00FF#16⟩, ⟨"TRK_INIT", 0x0005#16, 0xFFFF#16⟩]
  ++ [⟨"TRK_SAMPLE", 0x0006#16, 0xFFFF#16⟩, ⟨"TRK_DETECT", 0x0007#16, 0xFFFF#16⟩,
   ⟨"TRK_APPLY", 0x0008#16, 0xFFFF#16⟩, ⟨"TRK_RENDER", 0x0009#16, 0xFFFF#16⟩, ⟨"TRK_POLL", 0x000A#16, 0xFFFF#16⟩]

/-- `w` is an instance of the row. -/
def OpcodeRow.covers (r : OpcodeRow) (w : Word) : Bool := (w &&& r.mask) == r.pattern

/-- A word is legal when some row of the table covers it (R72). -/
def legalWord (w : Word) : Bool := opcodeRows.any fun r => r.covers w

end Sys2Proof
end

