-- ==== Sys2Proof/Decode.lean ====
section
/-! DEFINITION. The decoder of SRB-CMD (30_encoding.md R72), total on 16-bit words and rejecting by name, and
the encoder written from the opcode map (R67, R71). -/

namespace Sys2Proof

/-- Why a word is ILLEGAL (R73). -/
inductive IllegalWord where
  /-- `RSV` (bits 7:4) is not 0000 (R69). -/
  | reservedBits
  /-- `OP` is not 0x4 and `IMM8` is not 0x00 (R70). -/
  | immediate
  /-- `OP` is in 0xB..0xF (R74). -/
  | reservedOpcode
deriving DecidableEq, Repr

/-- What decoding a word gives: a command, or ILLEGAL with its reason (R72). -/
inductive Decoded where
  | command (i : Instr)
  | illegal (why : IllegalWord)
deriving DecidableEq, Repr

/-- `OP`, bits 3:0 (R68). -/
def opField (w : Word) : BitVec 4 := w.extractLsb' 0 4

/-- `RSV`, bits 7:4 (R69). -/
def rsvField (w : Word) : BitVec 4 := w.extractLsb' 4 4

/-- `IMM8`, bits 15:8 (R70). -/
def immField (w : Word) : Byte := w.extractLsb' 8 8

/-- The command of an opcode whose `IMM8` is zero (the `case` of R72). -/
def decodeFixed : Nat → Decoded
  | 0x0 => .command .nop
  | 0x1 => .command .spiInit
  | 0x2 => .command .spiBegin
  | 0x3 => .command .spiEnd
  | 0x5 => .command .trkInit
  | 0x6 => .command .trkSample
  | 0x7 => .command .trkDetect
  | 0x8 => .command .trkApply
  | 0x9 => .command .trkRender
  | 0xA => .command .trkPoll
  | _ => .illegal .reservedOpcode

/-- Decoding, clause by clause as R72. -/
def decode (w : Word) : Decoded :=
  if rsvField w ≠ 0#4 then .illegal .reservedBits
  else if opField w = 0x4#4 then .command (.spiXfer (immField w))
  else if immField w ≠ 0x00#8 then .illegal .immediate
  else decodeFixed (opField w).toNat

/-- The opcode of a command (R71). -/
def opcodeOf : Instr → BitVec 4
  | .nop => 0x0#4
  | .spiInit => 0x1#4
  | .spiBegin => 0x2#4
  | .spiEnd => 0x3#4
  | .spiXfer _ => 0x4#4
  | .trkInit => 0x5#4
  | .trkSample => 0x6#4
  | .trkDetect => 0x7#4
  | .trkApply => 0x8#4
  | .trkRender => 0x9#4
  | .trkPoll => 0xA#4

/-- The immediate of a command: the transmit byte of `SPI_XFER`, 0 for every other command (R67). -/
def immOf : Instr → Byte
  | .nop => 0x00#8
  | .spiInit => 0x00#8
  | .spiBegin => 0x00#8
  | .spiEnd => 0x00#8
  | .spiXfer out => out
  | .trkInit => 0x00#8
  | .trkSample => 0x00#8
  | .trkDetect => 0x00#8
  | .trkApply => 0x00#8
  | .trkRender => 0x00#8
  | .trkPoll => 0x00#8

/-- The word of a command: `IMM8 ++ 0000 ++ OP` (R67). -/
def encode (i : Instr) : Word := immOf i ++ (0#4 ++ opcodeOf i)

/-- The instruction a decoding holds, if it holds one. -/
def Decoded.toInstr : Decoded → Option Instr
  | .command i => some i
  | .illegal _ => none

/-- The instruction the decoder reads from the bits `w` of a table row of `nbits` bits. A command is one
16-bit word (R67), so a number that needs more bits is no command. -/
def decodeTableWord (nbits w : Nat) : Option Instr :=
  if nbits ≤ 16 ∧ w < 65536 then (decode (BitVec.ofNat 16 w)).toInstr else none

end Sys2Proof
end

