-- ==== Sys2Proof/Machine/State.lean ====
section
/-! DEFINITION. The state of SRB-CORE as plain data (10_state.md R15 to R42), the reasons a step can stop,
and the state after reset (70_reset_and_hazards.md R137). -/

namespace Sys2Proof.Machine

/-- The direction of a pin (R34). -/
inductive Dir where
  | input
  | output
deriving DecidableEq, Repr

/-- The pins of SRB-CORE (R34). -/
inductive Pin where
  | spiCs
  | spiSck
  | spiMosi
  | spiMiso
  | trkIn (c : Fin 8)
  | trkOut0
  | trkOut1
deriving DecidableEq, Repr

/-- An event of the pin trace (R11, R42). -/
inductive Event where
  | dir (p : Pin) (d : Dir)
  | drive (p : Pin) (v : Level)
  | sample (p : Pin) (v : Level)
  | sampleAll (v : Byte)
  | hold
deriving DecidableEq, Repr

/-- `SEQ` (R37). -/
inductive SeqState where
  | idle
  | run
deriving DecidableEq, Repr

/-- `PHASE`, the phase of a bit period (R37). -/
inductive Phase where
  | drive
  | high
  | low
deriving DecidableEq, Repr

/-- The model faults of R114, each with the command word it records. As a value of `State.fault` it is the
record `FAULT`; as the reason of a stop it is raised by `step` in a state whose `FAULT` is not none, and by
nothing else. Every one is safe in the spec's own terms (R124: "errs toward unprovable"): the hardware goes on
where the model stops. -/
inductive Fault where
  /-- Code 1, recorded by a CMD write whose word decodes to ILLEGAL (R115); safe. -/
  | illegalCommand (w : Word)
  /-- Code 2, recorded by `SPI_BEGIN`, `SPI_END`, `SPI_XFER` while `SPI_RDY` = 0 (R116); safe. -/
  | spiNotInitialised (w : Word)
  /-- Code 3, recorded by `SPI_XFER` while `SESSION` = 0 (R117); safe. -/
  | xferOutsideSession (w : Word)
  /-- Code 4, recorded by `SPI_BEGIN` while `SESSION` = 1 (R118); safe. -/
  | nestedSession (w : Word)
  /-- Code 5, recorded by `SPI_END` while `SESSION` = 0 (R119); safe. -/
  | endWithoutSession (w : Word)
  /-- Code 6, recorded by `SPI_INIT` while `SESSION` = 1 (R120); safe. -/
  | initInSession (w : Word)
  /-- Code 7, recorded by a tracker command but `TRK_INIT` while `TRK_RUN` = 0 (R121); safe. -/
  | trackerNotRunning (w : Word)
  /-- Code 8, recorded by `TRK_INIT` while `TRK_RUN` = 1 (R122); safe. -/
  | trackerReinit (w : Word)
deriving DecidableEq, Repr

/-- Why a step has no meaning. -/
inductive Refusal where
  /-- The arm of `exec` for an instruction without a meaning; safe. No arm of this model uses it. -/
  | notModelled (mnemonic : String)
  /-- Raised by `step` when the configuration is ill formed (R8: "A model refuses an ill-formed
  configuration"); safe. -/
  | illFormedConfig
deriving DecidableEq, Repr

/-- One access of the host to the host port, or its assertion of `RST` (R44, R46, R136). -/
inductive HostAccess where
  | write (addr : Addr) (data : Word)
  | read (addr : Addr)
  | reset
deriving DecidableEq, Repr

/-- What one host read returned on `BUS_RDATA` (R44). -/
structure ReadResult where
  addr : Addr
  data : Word
deriving DecidableEq, Repr

/-- The state of the SPI unit (R78): its STATUS fields, RXDATA, its shift registers and counters (R37), the
latches of its output pins and the directions of its four pins (R34). -/
structure SpiUnit where
  spiRdy : Bool
  session : Bool
  rxValid : Bool
  rxData : Byte
  txSr : Byte
  rxSr : Byte
  bitCnt : BitVec 3
  phase : Phase
  holdCnt : BitVec 16
  csLat : Level
  sckLat : Level
  mosiLat : Level
  csDir : Dir
  sckDir : Dir
  mosiDir : Dir
  misoDir : Dir
deriving DecidableEq, Repr

/-- The state of the tracker unit (R95): its STATUS fields, the sample and change registers, the history
and render files (R28 to R32), and the latches and directions of its pins (R34). -/
structure TrkUnit where
  trkRun : Bool
  chg : Bool
  rendValid : Bool
  cur : Byte
  prev : Byte
  changes : Byte
  hist : Vector Word 8
  rend : Vector Word 8
  inDir : Vector Dir 8
  out0Dir : Dir
  out1Dir : Dir
  out0Lat : Level
  out1Lat : Level
deriving DecidableEq, Repr

/-- The environment agents' inputs (R13, R59, log 3): the levels they will supply next, oldest first, and how
many draws came from the free values because nothing was listed. -/
structure Env where
  miso : List Level
  trk : List Byte
  misoCount : Nat
  trkCount : Nat
deriving DecidableEq, Repr

/-- The host agent's side (R13, R136, log 2): the accesses it has pending, oldest first, and the values its
reads returned, oldest first. -/
structure HostPort where
  queue : List HostAccess
  readLog : List ReadResult
deriving DecidableEq, Repr

/-- The state of the machine (R15). `cfg` is the configuration record, a parameter that no step changes
(log 1); `host` and `env` are the agents outside the block; the rest is the block's. -/
structure State where
  cfg : Cfg
  seq : SeqState
  curCmd : Word
  spi : SpiUnit
  trk : TrkUnit
  fault : Option Fault
  trace : List Event
  env : Env
  host : HostPort
deriving DecidableEq, Repr

/-- The SPI unit after reset (10_state.md section 5). -/
def SpiUnit.reset : SpiUnit where
  spiRdy := false
  session := false
  rxValid := false
  rxData := 0#8
  txSr := 0#8
  rxSr := 0#8
  bitCnt := 0#3
  phase := .drive
  holdCnt := 0#16
  csLat := false
  sckLat := false
  mosiLat := false
  csDir := .input
  sckDir := .input
  mosiDir := .input
  misoDir := .input

/-- The tracker unit after reset (10_state.md section 5). -/
def TrkUnit.reset : TrkUnit where
  trkRun := false
  chg := false
  rendValid := false
  cur := 0#8
  prev := 0#8
  changes := 0#8
  hist := Vector.replicate 8 0#16
  rend := Vector.replicate 8 0#16
  inDir := Vector.replicate 8 .input
  out0Dir := .input
  out1Dir := .input
  out0Lat := false
  out1Lat := false

/-- Environment agents that have listed nothing (DESIGN CHOICE, log 3). -/
def Env.reset : Env where
  miso := []
  trk := []
  misoCount := 0
  trkCount := 0

/-- A host with no access pending (DESIGN CHOICE, log 2). -/
def HostPort.reset : HostPort where
  queue := []
  readLog := []

/-- The block right after reset, for a configuration and given agents (R137). -/
def State.resetWith (cfg : Cfg) (env : Env) (host : HostPort) : State where
  cfg := cfg
  seq := .idle
  curCmd := 0#16
  spi := SpiUnit.reset
  trk := TrkUnit.reset
  fault := none
  trace := []
  env := env
  host := host

/-- The machine right after reset, with the default configuration of R7 and nothing pending (R137, R138). -/
def State.reset : State := State.resetWith Config.default Env.reset HostPort.reset

end Sys2Proof.Machine
end

