-- ==== Sys2Proof/Machine/Ops.lean ====
section
/-! DEFINITION. The shared operations on the state: the pin-mux driver and the pin trace (00_scope.md R11,
10_state.md R34 to R36, R42), the settle hold (41_spi_master.md R79), fault entry (60_exceptions.md R124)
and reset (70_reset_and_hazards.md R137). -/

namespace Sys2Proof.Machine

/-- The answer of a meaning. -/
abbrev Answer := Host.Outcome State Fault Refusal

/-- Go on with `f` from a next state; stop where `o` stops. -/
def andThen (o : Answer) (f : State → Answer) : Answer :=
  match o with
  | .next s => f s
  | .fault r => .fault r
  | .refused r => .refused r

/-- Append an event to `TRACE` (R42). -/
def emit (e : Event) (s : State) : State := { s with trace := s.trace ++ [e] }

/-- The direction `DIR[p]` of a pin (R34). -/
def pinDirOf (p : Pin) (s : State) : Dir :=
  match p with
  | .spiCs => s.spi.csDir
  | .spiSck => s.spi.sckDir
  | .spiMosi => s.spi.mosiDir
  | .spiMiso => s.spi.misoDir
  | .trkIn c => s.trk.inDir[c]
  | .trkOut0 => s.trk.out0Dir
  | .trkOut1 => s.trk.out1Dir

/-- The output latch `LAT[p]`, for the pins that can drive (R34). -/
def pinLatOf (p : Pin) (s : State) : Option Level :=
  match p with
  | .spiCs => some s.spi.csLat
  | .spiSck => some s.spi.sckLat
  | .spiMosi => some s.spi.mosiLat
  | .spiMiso => none
  | .trkIn _ => none
  | .trkOut0 => some s.trk.out0Lat
  | .trkOut1 => some s.trk.out1Lat

/-- The level SRB-CORE drives on the wire of a pin; `none` is `Z`, not driven (R35, R45). -/
def wireLevel (p : Pin) (s : State) : Option Level :=
  match pinDirOf p s with
  | .output => pinLatOf p s
  | .input => none

/-- Set `DIR[p]`, without the event. -/
def setDir (p : Pin) (d : Dir) (s : State) : State :=
  match p with
  | .spiCs => { s with spi := { s.spi with csDir := d } }
  | .spiSck => { s with spi := { s.spi with sckDir := d } }
  | .spiMosi => { s with spi := { s.spi with mosiDir := d } }
  | .spiMiso => { s with spi := { s.spi with misoDir := d } }
  | .trkIn c => { s with trk := { s.trk with inDir := s.trk.inDir.set c d } }
  | .trkOut0 => { s with trk := { s.trk with out0Dir := d } }
  | .trkOut1 => { s with trk := { s.trk with out1Dir := d } }

/-- Set `LAT[p]`, without the event; the input pins have no latch (R34). -/
def setLat (p : Pin) (v : Level) (s : State) : State :=
  match p with
  | .spiCs => { s with spi := { s.spi with csLat := v } }
  | .spiSck => { s with spi := { s.spi with sckLat := v } }
  | .spiMosi => { s with spi := { s.spi with mosiLat := v } }
  | .spiMiso => s
  | .trkIn _ => s
  | .trkOut0 => { s with trk := { s.trk with out0Lat := v } }
  | .trkOut1 => { s with trk := { s.trk with out1Lat := v } }

/-- `PinDir(p, d)` (R11). -/
def pinDir (p : Pin) (d : Dir) (s : State) : State := emit (.dir p d) (setDir p d s)

/-- `PinWrite(p, v)`: the event is appended whether or not the latch changes (R11). -/
def pinWrite (p : Pin) (v : Level) (s : State) : State := emit (.drive p v) (setLat p v s)

/-- A whole `Hold(P_T_SETTLE)` as one command step sees it: one `Hold` event, no pin changed, and the hold
counter counted down to 0 (R79, R37). -/
def hold (s : State) : State :=
  emit .hold { s with spi := { s.spi with holdCnt := 0#16 } }

/-- The start of a `Hold` at the cycle level: `HOLDCNT <- P_SETTLE_CYCLES` (R94) and one `Hold` event (R79).
DESIGN CHOICE: the event enters `TRACE` in this cycle, before the counter runs; R11, R79 and R94 do not say in
which cycle of the hold it does (log 22). -/
def startHold (s : State) : State :=
  emit .hold { s with spi := { s.spi with holdCnt := BitVec.ofNat 16 s.cfg.settleCycles } }

/-- `CUR_CMD <- w` when a command word is accepted (R37, R94). -/
def acceptWord (w : Word) (s : State) : State := { s with curCmd := w }

/-- Fault entry, `raise Fault(code)`: `FAULT` takes the record and nothing else changes (R124). There is no
return from it (R125); `step` stops in the state it leaves (log 4). -/
def raiseFault (f : Fault) (s : State) : State := { s with fault := some f }

/-- The code of a model fault (R114). -/
def faultCode : Fault → Nat
  | .illegalCommand _ => 1
  | .spiNotInitialised _ => 2
  | .xferOutsideSession _ => 3
  | .nestedSession _ => 4
  | .endWithoutSession _ => 5
  | .initInSession _ => 6
  | .trackerNotRunning _ => 7
  | .trackerReinit _ => 8

/-- The command word a model fault records (R114). -/
def faultWord : Fault → Word
  | .illegalCommand w => w
  | .spiNotInitialised w => w
  | .xferOutsideSession w => w
  | .nestedSession w => w
  | .endWithoutSession w => w
  | .initInSession w => w
  | .trackerNotRunning w => w
  | .trackerReinit w => w

/-- The first fault whose cause holds, in the order of the list (R123). -/
def firstFault : List (Bool × Fault) → Option Fault
  | [] => none
  | (cause, f) :: rest => if cause then some f else firstFault rest

/-- Run `effect` unless a contract check failed; then enter the fault, before any effect (R124). -/
def faultOr (f : Option Fault) (effect : State → State) (s : State) : Answer :=
  match f with
  | some f => .next (raiseFault f s)
  | none => .next (effect s)

/-- Block reset: every element of the block's state takes its reset value and the configuration keeps its
own (R137). The agents outside the block are not reset (log 10). -/
def resetBlock (s : State) : State := State.resetWith s.cfg s.env s.host

/-- `SEQ <- v` (R37). -/
def setSeq (v : SeqState) (s : State) : State := { s with seq := v }

/-- The value of a level as a word, 0 or 1 (R10). -/
def levelWord (v : Level) : Word := if v then 1#16 else 0#16

/-- A one-bit field at bit `n` of a word. -/
def fieldBit (v : Bool) (n : Nat) : Word := if v then 1#16 <<< n else 0#16

/-- `ones(W)` for `W` up to 16 (R10). -/
def onesWord (width : Nat) : Word := BitVec.ofNat 16 (2 ^ width - 1)

end Sys2Proof.Machine
end

