-- ==== Sys2Proof/Machine/Control.lean ====
section
/-! DEFINITION. The control command `NOP` (40_control.md R77). -/

namespace Sys2Proof.Machine

/-- `NOP`: no state change, no pin event (R77); as a whole command it leaves `CUR_CMD` too (log 7). -/
def nopEffect (s : State) : State := s

/-- The meaning of `NOP` (R77): legal in every state. -/
def execNop (s : State) : Answer := .next (nopEffect s)

end Sys2Proof.Machine
end

