-- ==== Sys2Proof/Machine/Operands.lean ====
section
/-! DEFINITION. The operands of commands: the draws from the environment (`PinRead`, `SampleInputs`, 00_scope.md
R11, 20_memory.md R59) and the shift registers' serial bits (20_memory.md R52). The immediate of
`SPI_XFER` is used unchanged (30_encoding.md R70), so it needs no operation. -/

namespace Sys2Proof.Machine

/-- One level of `SPI_MISO`: the next listed one, or a free value when none is listed (R59, log 3). -/
def drawMiso (e : Env) : Level × Env :=
  match e.miso with
  | b :: rest => (b, { e with miso := rest })
  | [] => (Config.freeMiso e.misoCount, { e with misoCount := e.misoCount + 1 })

/-- One simultaneous sample of `TRK_IN[0..7]`: the next listed one, or a free value (R59, log 3). -/
def drawTrk (e : Env) : Byte × Env :=
  match e.trk with
  | v :: rest => (v, { e with trk := rest })
  | [] => (Config.freeTrkIn e.trkCount, { e with trkCount := e.trkCount + 1 })

/-- `PinRead(SPI_MISO)` (R11). -/
def pinReadMiso (s : State) : Level × State :=
  let d := drawMiso s.env
  (d.1, emit (.sample .spiMiso d.1) { s with env := d.2 })

/-- `SampleInputs()` (R11): the event carries all eight levels. -/
def sampleInputs (s : State) : Byte × State :=
  let d := drawTrk s.env
  (d.1, emit (.sampleAll d.1) { s with env := d.2 })

/-- The data-out bit of the period, `TX_SR[7]` (R52, R84). -/
def txBit (s : State) : Level := s.spi.txSr.getLsbD 7

/-- `v[6:0] ++ b`: shift left and insert `b` at bit 0 (R52, R84). -/
def shiftIn (v : Byte) (b : Level) : Byte := (v <<< 1) ||| (if b then 1#8 else 0#8)

/-- `CH_MASK`'s two parts: bit `c` is 1 when channel `c` of the list has the policy `p` (R33). -/
def policyMask (p : EdgePolicy) : List Chan → Byte
  | [] => 0#8
  | ch :: rest => (policyMask p rest <<< 1) ||| (if ch.policy = p then 1#8 else 0#8)

/-- `ANY_MASK` (R33). -/
def anyMask (cfg : Cfg) : Byte := policyMask .any cfg.channels

/-- `FALL_MASK` (R33). -/
def fallMask (cfg : Cfg) : Byte := policyMask .fall cfg.channels

/-- `CH_MASK = ANY_MASK | FALL_MASK` (R33). -/
def chMask (cfg : Cfg) : Byte := anyMask cfg ||| fallMask cfg

/-- A file of eight registers with `f` applied to the registers of the configured channels; the registers
of channels `c ≥ P_NCH` do not exist and are never written (R31, D37). -/
def updateBank (cfg : Cfg) (f : Fin 8 → Chan → Word → Word) (bank : Vector Word 8) : Vector Word 8 :=
  Vector.ofFn fun c =>
    match cfg.channels[c.val]? with
    | some ch => f c ch bank[c]
    | none => bank[c]

/-- The newest recorded level of channel `c`, bit 0 of its history (R101). -/
def newestBit (c : Nat) (s : State) : Level :=
  match s.trk.hist[c]? with
  | some h => h.getLsbD 0
  | none => false

/-- The pins `TRK_IN[c]` of the configured channels, in channel order (R95). -/
def channelPins (cfg : Cfg) : List (Fin 8) :=
  ([0, 1, 2, 3, 4, 5, 6, 7] : List (Fin 8)).filter fun c => decide (c.val < cfg.nch)

end Sys2Proof.Machine
end

