-- ==== Sys2Proof/Machine/Flags.lean ====
section
/-! DEFINITION. The flags of SRB-CORE, the fields of STATUS (10_state.md R18 to R25), each with the one
operation that writes it, the conditions the commands put on them, and the words STATUS and PINS they are read
through (R18, R27). -/

namespace Sys2Proof.Machine

/-- `STATUS.BUSY`: 1 while a command is executing, which is while `SEQ = RUN` (R19, R94, log 6). -/
def busy (s : State) : Bool := decide (s.seq = .run)

/-- `SPI_RDY <- 1` (R20). -/
def setSpiRdy (s : State) : State := { s with spi := { s.spi with spiRdy := true } }

/-- `SESSION <- v` (R21). -/
def setSession (v : Bool) (s : State) : State := { s with spi := { s.spi with session := v } }

/-- `TRK_RUN <- 1` (R22). -/
def setTrkRun (s : State) : State := { s with trk := { s.trk with trkRun := true } }

/-- `CHANGES <- m; CHG <- (m != 0)` (R23, R30). -/
def setChanges (m : Byte) (s : State) : State :=
  { s with trk := { s.trk with changes := m, chg := decide (m ≠ 0#8) } }

/-- `RXDATA <- RX_SR; RX_VALID <- 1` (R24, R26). -/
def commitRx (s : State) : State :=
  { s with spi := { s.spi with rxData := s.spi.rxSr, rxValid := true } }

/-- `REND_VALID <- 1` (R25). -/
def setRendValid (s : State) : State := { s with trk := { s.trk with rendValid := true } }

/-- The contract checks of a command pass in the state: the conditions of the command rules on STATUS alone (R77,
R81 to R84, R102 to R108). -/
def legalIn (i : Instr) (s : State) : Bool :=
  match i with
  | .nop => true
  | .spiInit => !s.spi.session
  | .spiBegin => s.spi.spiRdy && !s.spi.session
  | .spiEnd => s.spi.spiRdy && s.spi.session
  | .spiXfer _ => s.spi.spiRdy && s.spi.session
  | .trkInit => !s.trk.trkRun
  | .trkSample => s.trk.trkRun
  | .trkDetect => s.trk.trkRun
  | .trkApply => s.trk.trkRun
  | .trkRender => s.trk.trkRun
  | .trkPoll => s.trk.trkRun

/-- The word STATUS (R18). -/
def statusWord (s : State) : Word :=
  fieldBit (busy s) 0 ||| fieldBit s.spi.spiRdy 1 ||| fieldBit s.spi.session 2
    ||| fieldBit s.trk.trkRun 3 ||| fieldBit s.trk.chg 4 ||| fieldBit s.spi.rxValid 5
    ||| fieldBit s.trk.rendValid 6

/-- `SPI_OE`: the three SPI output pins are outputs (R27). -/
def spiOe (s : State) : Bool :=
  decide (s.spi.csDir = .output) && decide (s.spi.sckDir = .output) && decide (s.spi.mosiDir = .output)

/-- `TRK_OE`: both mirror pins are outputs (R27). -/
def trkOe (s : State) : Bool :=
  decide (s.trk.out0Dir = .output) && decide (s.trk.out1Dir = .output)

/-- The word PINS (R27). -/
def pinsWord (s : State) : Word :=
  fieldBit s.spi.csLat 0 ||| fieldBit s.spi.sckLat 1 ||| fieldBit s.spi.mosiLat 2
    ||| fieldBit s.trk.out0Lat 3 ||| fieldBit s.trk.out1Lat 4 ||| fieldBit (spiOe s) 8
    ||| fieldBit (trkOe s) 9

end Sys2Proof.Machine
end

