-- ==== Sys2Proof/Machine/Spi.lean ====
section
/-! DEFINITION. The SPI unit's commands (41_spi_master.md R81 to R84), each as its contract check, its effect
(the pseudocode after the check) and its meaning, which is one step (20_memory.md R55). -/

namespace Sys2Proof.Machine

/-- The contract check of `SPI_INIT` (R81, R120). -/
def spiInitFault (s : State) : Option Fault :=
  firstFault [(s.spi.session, .initInSession (encode .spiInit))]

/-- The effect of `SPI_INIT` (R81): each latch is written before its pin becomes an output (D11). -/
def spiInitEffect (s : State) : State :=
  let s := acceptWord (encode .spiInit) s
  let s := pinWrite .spiCs (!s.cfg.csActive) s
  let s := pinWrite .spiSck false s
  let s := pinWrite .spiMosi false s
  let s := pinDir .spiCs .output s
  let s := pinDir .spiSck .output s
  let s := pinDir .spiMosi .output s
  let s := pinDir .spiMiso .input s
  let s := setSpiRdy s
  setSession false s

/-- The meaning of `SPI_INIT` (R81). -/
def execSpiInit (s : State) : Answer := faultOr (spiInitFault s) spiInitEffect s

/-- The contract checks of `SPI_BEGIN`, in the order of R123 (R82). -/
def spiBeginFault (s : State) : Option Fault :=
  firstFault [(!s.spi.spiRdy, .spiNotInitialised (encode .spiBegin)),
    (s.spi.session, .nestedSession (encode .spiBegin))]

/-- The effect of `SPI_BEGIN` (R82). -/
def spiBeginEffect (s : State) : State :=
  let s := acceptWord (encode .spiBegin) s
  let s := pinWrite .spiCs s.cfg.csActive s
  let s := hold s
  setSession true s

/-- The meaning of `SPI_BEGIN` (R82). -/
def execSpiBegin (s : State) : Answer := faultOr (spiBeginFault s) spiBeginEffect s

/-- The contract checks of `SPI_END`, in the order of R123 (R83). -/
def spiEndFault (s : State) : Option Fault :=
  firstFault [(!s.spi.spiRdy, .spiNotInitialised (encode .spiEnd)),
    (!s.spi.session, .endWithoutSession (encode .spiEnd))]

/-- The effect of `SPI_END` (R83). -/
def spiEndEffect (s : State) : State :=
  let s := acceptWord (encode .spiEnd) s
  let s := pinWrite .spiCs (!s.cfg.csActive) s
  let s := hold s
  setSession false s

/-- The meaning of `SPI_END` (R83). -/
def execSpiEnd (s : State) : Answer := faultOr (spiEndFault s) spiEndEffect s

/-- The contract checks of `SPI_XFER`, in the order of R123 (R84). -/
def spiXferFault (out : Byte) (s : State) : Option Fault :=
  firstFault [(!s.spi.spiRdy, .spiNotInitialised (encode (.spiXfer out))),
    (!s.spi.session, .xferOutsideSession (encode (.spiXfer out)))]

/-- `PHASE <- p` (R84). -/
def setPhase (p : Phase) (s : State) : State := { s with spi := { s.spi with phase := p } }

/-- `BITCNT <- n` (R84). -/
def setBitCnt (n : BitVec 3) (s : State) : State := { s with spi := { s.spi with bitCnt := n } }

/-- `TX_SR <- out; RX_SR <- 0x00` (R84). -/
def loadShift (out : Byte) (s : State) : State := { s with spi := { s.spi with txSr := out, rxSr := 0#8 } }

/-- `TX_SR <- TX_SR[6:0] ++ 0`: the sent bit is shifted out (R84). -/
def shiftOut (s : State) : State := { s with spi := { s.spi with txSr := shiftIn s.spi.txSr false } }

/-- `RX_SR <- RX_SR[6:0] ++ b` (R84). -/
def shiftRx (b : Level) (s : State) : State := { s with spi := { s.spi with rxSr := shiftIn s.spi.rxSr b } }

/-- The pin action of a phase, without its hold (R84, R94): data-out is driven; the clock is raised; data-in
is sampled and then the clock is lowered. -/
def phaseAction (p : Phase) (s : State) : State :=
  match p with
  | .drive => pinWrite .spiMosi (txBit s) s
  | .high => pinWrite .spiSck true s
  | .low =>
    let d := pinReadMiso s
    pinWrite .spiSck false (shiftRx d.1 d.2)

/-- One phase of a bit period with its hold (R84). -/
def runPhase (p : Phase) (s : State) : State := hold (phaseAction p (setPhase p s))

/-- The bit period of index `n` (R84). -/
def bitPeriod (n : BitVec 3) (s : State) : State :=
  shiftOut (runPhase .low (runPhase .high (runPhase .drive (setBitCnt n s))))

/-- The bit periods of indices `n - 1` down to 0 (R84). -/
def bitPeriods : Nat → State → State
  | 0, s => s
  | n + 1, s => bitPeriods n (bitPeriod (BitVec.ofNat 3 n) s)

/-- The effect of `SPI_XFER` (R84): eight bit periods for every `out`, then RXDATA once. -/
def spiXferEffect (out : Byte) (s : State) : State :=
  commitRx (bitPeriods 8 (loadShift out (acceptWord (encode (.spiXfer out)) s)))

/-- The meaning of `SPI_XFER` (R84). -/
def execSpiXfer (out : Byte) (s : State) : Answer := faultOr (spiXferFault out s) (spiXferEffect out) s

end Sys2Proof.Machine
end

