-- ==== Sys2Proof/Machine/Tracker.lean ====
section
/-! DEFINITION. The tracker unit: its pure functions (42_signal_tracker.md R96 to R101) and its six commands
(R103 to R108), each as its contract check, its effect and its meaning. -/

namespace Sys2Proof.Machine

/-- `event(p, a, b)`: the event bit of one channel (R96). -/
def event (p : EdgePolicy) (a b : Level) : Bool :=
  match p with
  | .any => xor a b
  | .fall => a && !b

/-- `detect(previous, current)`: the change mask, lane by lane (R97). -/
def detect (cfg : Cfg) (previous current : Byte) : Byte :=
  ((previous ^^^ current) &&& anyMask cfg) ||| ((previous &&& ~~~current) &&& fallMask cfg)

/-- `newlevel(c, current)` for a channel `c` of policy `p` (R98). -/
def newlevel (p : EdgePolicy) (c : Nat) (current : Byte) : Level :=
  match p with
  | .any => current.getLsbD c
  | .fall => false

/-- `push(h, l, W) = ((h << 1) | l) mod 2^W` (R99). -/
def push (h : Word) (l : Level) (width : Nat) : Word := ((h <<< 1) ||| levelWord l) &&& onesWord width

/-- `seed(l, W)` (R100). -/
def seed (l : Level) (width : Nat) : Word := if l then onesWord width else 0#16

/-- `MirrorUpdate()` (R101). -/
def mirrorUpdate (s : State) : State :=
  if s.cfg.mirrorEn then
    let s := pinWrite .trkOut0 (newestBit s.cfg.mirrorSrc0 s) s
    pinWrite .trkOut1 (newestBit s.cfg.mirrorSrc1 s) s
  else s

/-- `PREV <- CUR; CUR <- SampleInputs() & CH_MASK` (R104). -/
def takeSample (s : State) : State :=
  let d := sampleInputs s
  { d.2 with trk := { d.2.trk with prev := d.2.trk.cur, cur := d.1 &&& chMask d.2.cfg } }

/-- `CHANGES <- detect(PREV, CUR); CHG <- (CHANGES != 0)` (R105). -/
def detectChanges (s : State) : State := setChanges (detect s.cfg s.trk.prev s.trk.cur) s

/-- Every flagged channel's history takes its new level (R106). -/
def pushHistories (s : State) : State :=
  let shifted (c : Fin 8) (ch : Chan) (h : Word) : Word :=
    if s.trk.changes.getLsbD c.val then push h (newlevel ch.policy c.val s.trk.cur) ch.width else h
  { s with trk := { s.trk with hist := updateBank s.cfg shifted s.trk.hist } }

/-- The flagged histories are shifted, then the mirror is updated (R106). -/
def applyChanges (s : State) : State := mirrorUpdate (pushHistories s)

/-- `REND[c] <- HIST[c]` for every configured channel (R107). -/
def copyRend (s : State) : State :=
  let bank := updateBank s.cfg (fun c _ _ => s.trk.hist[c]) s.trk.rend
  { s with trk := { s.trk with rend := bank } }

/-- The render snapshot is taken (R107). -/
def renderSnapshot (s : State) : State := setRendValid (copyRend s)

/-- `for c in 0 .. P_NCH-1: PinDir(TRK_IN[c], IN)` (R103). -/
def configureInputs (s : State) : State := (channelPins s.cfg).foldl (fun s c => pinDir (.trkIn c) .input s) s

/-- The first sample: `v <- SampleInputs() & CH_MASK; CUR <- v; PREV <- v` (R103). -/
def firstSample (s : State) : State :=
  let d := sampleInputs s
  { d.2 with trk := { d.2.trk with prev := d.1 &&& chMask d.2.cfg, cur := d.1 &&& chMask d.2.cfg } }

/-- `HIST[c] <- seed(v[c], P_W[c])` for every configured channel, with `v` in CUR (R103). -/
def seedHistories (s : State) : State :=
  let bank := updateBank s.cfg (fun c ch _ => seed (s.trk.cur.getLsbD c.val) ch.width) s.trk.hist
  { s with trk := { s.trk with hist := bank } }

/-- The mirror outputs are configured, latches first (R103, D11). -/
def configureMirror (s : State) : State :=
  if s.cfg.mirrorEn then pinDir .trkOut1 .output (pinDir .trkOut0 .output (mirrorUpdate s)) else s

/-- The contract check of `TRK_INIT` (R103, R122). -/
def trkInitFault (s : State) : Option Fault := firstFault [(s.trk.trkRun, .trackerReinit (encode .trkInit))]

/-- The effect of `TRK_INIT` (R103). -/
def trkInitEffect (s : State) : State :=
  let s := acceptWord (encode .trkInit) s
  let s := configureInputs s
  let s := firstSample s
  let s := setChanges 0x00#8 s
  let s := seedHistories s
  let s := renderSnapshot s
  let s := configureMirror s
  setTrkRun s

/-- The meaning of `TRK_INIT` (R103). -/
def execTrkInit (s : State) : Answer := faultOr (trkInitFault s) trkInitEffect s

/-- The contract check of the tracker commands other than `TRK_INIT`, for the command word `w` (R121). -/
def notRunningFault (w : Word) (s : State) : Option Fault :=
  firstFault [(!s.trk.trkRun, .trackerNotRunning w)]

/-- The effect of `TRK_SAMPLE` (R104). -/
def trkSampleEffect (s : State) : State := takeSample (acceptWord (encode .trkSample) s)

/-- The meaning of `TRK_SAMPLE` (R104). -/
def execTrkSample (s : State) : Answer := faultOr (notRunningFault (encode .trkSample) s) trkSampleEffect s

/-- The effect of `TRK_DETECT` (R105). -/
def trkDetectEffect (s : State) : State := detectChanges (acceptWord (encode .trkDetect) s)

/-- The meaning of `TRK_DETECT` (R105). -/
def execTrkDetect (s : State) : Answer := faultOr (notRunningFault (encode .trkDetect) s) trkDetectEffect s

/-- The effect of `TRK_APPLY` (R106). -/
def trkApplyEffect (s : State) : State := applyChanges (acceptWord (encode .trkApply) s)

/-- The meaning of `TRK_APPLY` (R106). -/
def execTrkApply (s : State) : Answer := faultOr (notRunningFault (encode .trkApply) s) trkApplyEffect s

/-- The effect of `TRK_RENDER` (R107). -/
def trkRenderEffect (s : State) : State := renderSnapshot (acceptWord (encode .trkRender) s)

/-- The meaning of `TRK_RENDER` (R107). -/
def execTrkRender (s : State) : Answer := faultOr (notRunningFault (encode .trkRender) s) trkRenderEffect s

/-- The rest of an iteration after the detection: nothing when the mask is 0, else apply and render (R108). -/
def reactToChanges (s : State) : State :=
  if s.trk.changes ≠ 0x00#8 then renderSnapshot (applyChanges s) else s

/-- The effect of `TRK_POLL` (R108). -/
def trkPollEffect (s : State) : State :=
  reactToChanges (detectChanges (takeSample (acceptWord (encode .trkPoll) s)))

/-- The meaning of `TRK_POLL` (R108). -/
def execTrkPoll (s : State) : Answer := faultOr (notRunningFault (encode .trkPoll) s) trkPollEffect s

end Sys2Proof.Machine
end

