-- ==== Sys2Proof/Machine/Dispatch.lean ====
section
/-! DEFINITION. The dispatch of commands to their meanings, one arm per constructor (30_encoding.md R71). -/

namespace Sys2Proof.Machine

def exec (i : Instr) (s : State) : Host.Outcome State Fault Refusal :=
  match i with
  | .nop => Sys2Proof.Machine.execNop s
  | .spiInit => Sys2Proof.Machine.execSpiInit s
  | .spiBegin => Sys2Proof.Machine.execSpiBegin s
  | .spiEnd => Sys2Proof.Machine.execSpiEnd s
  | .spiXfer out => Sys2Proof.Machine.execSpiXfer out s
  | .trkInit => Sys2Proof.Machine.execTrkInit s
  | .trkSample => Sys2Proof.Machine.execTrkSample s
  | .trkDetect => Sys2Proof.Machine.execTrkDetect s
  | .trkApply => Sys2Proof.Machine.execTrkApply s
  | .trkRender => Sys2Proof.Machine.execTrkRender s
  | .trkPoll => Sys2Proof.Machine.execTrkPoll s

end Sys2Proof.Machine
end

