-- ==== Sys2Proof/Machine/Registers.lean ====
section
/-! DEFINITION. The host register space: 32 registers of 16 bits (20_memory.md R47 to R50), and the one read
operation every host read goes through. -/

namespace Sys2Proof.Machine

/-- The registers of the map (R48). -/
inductive Reg where
  | cmd
  | status
  | rxdata
  | pins
  | cur
  | prev
  | changes
  | cfg0
  | hist (c : Fin 8)
  | rend (c : Fin 8)
  | cfg1
  | cfg2
  | widths (k : Fin 4)
  | reserved
deriving DecidableEq, Repr

/-- The register at an address (R48). -/
def regAt (a : Addr) : Reg :=
  if a.toNat < 8 then
    match a.toNat with
    | 0 => .cmd
    | 1 => .status
    | 2 => .rxdata
    | 3 => .pins
    | 4 => .cur
    | 5 => .prev
    | 6 => .changes
    | _ => .cfg0
  else if a.toNat < 16 then .hist (Fin.ofNat 8 (a.toNat - 8))
  else if a.toNat < 24 then .rend (Fin.ofNat 8 (a.toNat - 16))
  else if a.toNat = 24 then .cfg1
  else if a.toNat = 25 then .cfg2
  else if a.toNat < 30 then .widths (Fin.ofNat 4 (a.toNat - 26))
  else .reserved

/-- `P_W[c]`, or 0 when `c ≥ P_NCH` (R33). -/
def widthOf (cfg : Cfg) (c : Nat) : Nat :=
  match cfg.channels[c]? with
  | some ch => ch.width
  | none => 0

/-- A number placed with its least significant bit at bit `n` of a word. -/
def fieldNat (v n : Nat) : Word := BitVec.ofNat 16 v <<< n

/-- The word CFG0 (R33). -/
def cfg0Word (cfg : Cfg) : Word :=
  fieldNat cfg.nch 0 ||| fieldBit cfg.csActive 4 ||| fieldBit cfg.mirrorEn 5
    ||| fieldNat cfg.syncStages 6 ||| ((anyMask cfg).setWidth 16 <<< 8)

/-- The word CFG1 (R33). -/
def cfg1Word (cfg : Cfg) : Word := fieldNat cfg.mirrorSrc0 0 ||| fieldNat cfg.mirrorSrc1 4

/-- The word CFG2 (R33). -/
def cfg2Word (cfg : Cfg) : Word := fieldNat cfg.settleCycles 0

/-- The words WIDTH01, WIDTH23, WIDTH45, WIDTH67 (R33). -/
def widthsWord (cfg : Cfg) (k : Nat) : Word :=
  fieldNat (widthOf cfg (2 * k)) 0 ||| fieldNat (widthOf cfg (2 * k + 1)) 8

/-- A slot of a register file as the host reads it: 0 when the channel does not exist (R31, R32, R49). -/
def bankRead (cfg : Cfg) (bank : Vector Word 8) (c : Fin 8) : Word :=
  if c.val < cfg.nch then bank[c] else 0#16

/-- The word a register reads as (10_state.md section 2, R49). -/
def regWord (r : Reg) (s : State) : Word :=
  match r with
  | .cmd => 0#16
  | .status => statusWord s
  | .rxdata => s.spi.rxData.setWidth 16
  | .pins => pinsWord s
  | .cur => s.trk.cur.setWidth 16
  | .prev => s.trk.prev.setWidth 16
  | .changes => s.trk.changes.setWidth 16
  | .cfg0 => cfg0Word s.cfg
  | .hist c => bankRead s.cfg s.trk.hist c
  | .rend c => bankRead s.cfg s.trk.rend c
  | .cfg1 => cfg1Word s.cfg
  | .cfg2 => cfg2Word s.cfg
  | .widths k => widthsWord s.cfg k.val
  | .reserved => 0#16

/-- `MemRead(a, 2)`: the register at address `a`, whole (R50). It gives a value and no state (R54). -/
def readReg (a : Addr) (s : State) : Word := regWord (regAt a) s

end Sys2Proof.Machine
end

