-- ==== Sys2Proof/Machine/Sequencer.lean ====
section
/-! DEFINITION. The cycle-level sequencer (41_spi_master.md R94): the acceptance cycle of each command, one
cycle of a running command, and the cycle counts (70_reset_and_hazards.md R150). -/

namespace Sys2Proof.Machine

/-- The command ends: `SEQ <- IDLE`, and with it `BUSY <- 0` (R94). -/
def toIdle (s : State) : State := setSeq .idle s

/-- The acceptance cycle of `NOP`: `CUR_CMD` takes the accepted word, as of every command (R94); nothing else
changes (R77, log 7). -/
def nopStart (s : State) : State := acceptWord (encode .nop) (nopEffect s)

/-- The acceptance cycle of `SPI_BEGIN`: the latch is written and the hold starts (R94). -/
def spiBeginStart (s : State) : State :=
  let s := acceptWord (encode .spiBegin) s
  let s := pinWrite .spiCs s.cfg.csActive s
  setSeq .run (startHold s)

/-- The acceptance cycle of `SPI_END` (R94). -/
def spiEndStart (s : State) : State :=
  let s := acceptWord (encode .spiEnd) s
  let s := pinWrite .spiCs (!s.cfg.csActive) s
  setSeq .run (startHold s)

/-- The acceptance cycle of `SPI_XFER`: shift registers loaded, bit 7, phase `P_DRIVE` (R94). -/
def spiXferStart (out : Byte) (s : State) : State :=
  let s := acceptWord (encode (.spiXfer out)) s
  setSeq .run (setPhase .drive (setBitCnt 7#3 (loadShift out s)))

/-- The acceptance cycle of a command (R94); a command without a hold performs all its effects in it. -/
def startCommand (i : Instr) (s : State) : Answer :=
  match i with
  | .nop => .next (nopStart s)
  | .spiInit => faultOr (spiInitFault s) spiInitEffect s
  | .spiBegin => faultOr (spiBeginFault s) spiBeginStart s
  | .spiEnd => faultOr (spiEndFault s) spiEndStart s
  | .spiXfer out => faultOr (spiXferFault out s) (spiXferStart out) s
  | .trkInit => faultOr (trkInitFault s) trkInitEffect s
  | .trkSample => faultOr (notRunningFault (encode .trkSample) s) trkSampleEffect s
  | .trkDetect => faultOr (notRunningFault (encode .trkDetect) s) trkDetectEffect s
  | .trkApply => faultOr (notRunningFault (encode .trkApply) s) trkApplyEffect s
  | .trkRender => faultOr (notRunningFault (encode .trkRender) s) trkRenderEffect s
  | .trkPoll => faultOr (notRunningFault (encode .trkPoll) s) trkPollEffect s

/-- One cycle of a hold: `HOLDCNT` decrements, and `done` follows in the cycle it reaches 0 (R94). -/
def countHold (done : State → State) (s : State) : State :=
  if s.spi.holdCnt.toNat ≤ 1 then done { s with spi := { s.spi with holdCnt := 0#16 } }
  else { s with spi := { s.spi with holdCnt := s.spi.holdCnt - 1#16 } }

/-- The hold of a phase has ended: the next phase starts, or after `P_LOW` of bit 0 the command commits
(R94). `TX_SR` shifts where R84 shifts it, after the last hold of the period (log 8). -/
def phaseDone (s : State) : State :=
  match s.spi.phase with
  | .drive => setPhase .high s
  | .high => setPhase .low s
  | .low =>
    let s := shiftOut s
    if s.spi.bitCnt = 0#3 then toIdle (commitRx s)
    else setPhase .drive (setBitCnt (s.spi.bitCnt - 1#3) s)

/-- One cycle of a running `SPI_XFER`: an action cycle when no hold is counting, else a cycle of the hold (R94). -/
def xferCycle (s : State) : State :=
  if s.spi.holdCnt = 0#16 then startHold (phaseAction s.spi.phase s) else countHold phaseDone s

/-- One cycle of the running command that `CUR_CMD` holds (R94). No command but the three with a hold ever
runs; a sequencer that stood in `RUN` with another word goes idle (log 14). -/
def runCycle (s : State) : State :=
  match decode s.curCmd with
  | .command .spiBegin => countHold (fun s => toIdle (setSession true s)) s
  | .command .spiEnd => countHold (fun s => toIdle (setSession false s)) s
  | .command (.spiXfer _) => xferCycle s
  | .command .nop => toIdle s
  | .command .spiInit => toIdle s
  | .command .trkInit => toIdle s
  | .command .trkSample => toIdle s
  | .command .trkDetect => toIdle s
  | .command .trkApply => toIdle s
  | .command .trkRender => toIdle s
  | .command .trkPoll => toIdle s
  | .illegal _ => toIdle s

/-- One cycle of the sequencer: a running command goes on, an idle sequencer keeps everything (R14, R94). -/
def advance (s : State) : State :=
  match s.seq with
  | .run => runCycle s
  | .idle => s

/-- `n` cycles of the sequencer with no host access. -/
def advanceN : Nat → State → State
  | 0, s => s
  | n + 1, s => advanceN n (advance s)

/-- Cycles from acceptance to completion, with `S = P_SETTLE_CYCLES` (R150). -/
def cycleCount (i : Instr) (settle : Nat) : Nat :=
  match i with
  | .nop => 1
  | .spiInit => 1
  | .spiBegin => 1 + settle
  | .spiEnd => 1 + settle
  | .spiXfer _ => 1 + 24 * (1 + settle)
  | .trkInit => 1
  | .trkSample => 1
  | .trkDetect => 1
  | .trkApply => 1
  | .trkRender => 1
  | .trkPoll => 1

end Sys2Proof.Machine
end

