-- ==== Sys2Proof/Machine/HostPort.lean ====
section
/-! DEFINITION. The host port (20_memory.md R44, R49, R54 to R57, 60_exceptions.md R136): the host's next
access, its completion, and the issue of a command. -/

namespace Sys2Proof.Machine

/-- `BUS_READY` for an access: 1 but for a write to CMD while `STATUS.BUSY` = 1 (R44, R56). -/
def busReady (a : HostAccess) (s : State) : Bool :=
  match a with
  | .write addr _ => !(decide (addr = 0#5) && busy s)
  | .read _ => true
  | .reset => true

/-- The pending accesses are replaced. -/
def setQueue (q : List HostAccess) (s : State) : State := { s with host := { s.host with queue := q } }

/-- The host records what its read of address `a` returned (R44, R75). -/
def logRead (a : Addr) (v : Word) (s : State) : State :=
  { s with host := { s.host with readLog := s.host.readLog ++ [⟨a, v⟩] } }

/-- The issue of a command word by a completed CMD write (R55): it is decoded, an ILLEGAL word enters the
fault `ILLEGAL_COMMAND` (R73, R115), and a command goes to `run`. -/
def issueWord (run : Instr → State → Answer) (w : Word) (s : State) : Answer :=
  match decode w with
  | .command i => run i s
  | .illegal _ => .next (raiseFault (.illegalCommand w) s)

/-- One access of the host, `rest` being the accesses behind it. A read returns the registers as they stand
before the sequencer's cycle (R57); a write to any address but CMD has no effect (R49); a CMD write while
`BUSY` = 1 stays pending (R56). -/
def hostAccess (run : Instr → State → Answer) (a : HostAccess) (rest : List HostAccess) (s : State) : Answer :=
  match a with
  | .reset => .next (setQueue rest (resetBlock s))
  | .read addr => .next (advance (logRead addr (readReg addr s) (setQueue rest s)))
  | .write addr data =>
    if busReady (.write addr data) s then
      if addr = 0#5 then issueWord run data (setQueue rest s) else .next (advance (setQueue rest s))
    else .next (advance s)

/-- One step of the machine, `run` being what an issued command does (R55 or R94). An ill-formed
configuration has no machine (R8). A state with `FAULT` recorded has no further step; only reset leaves it
(R124, R125, log 4). With no access pending the sequencer goes on alone (R14). -/
def hostStep (run : Instr → State → Answer) (s : State) : Answer :=
  if s.cfg.wf then
    match s.host.queue, s.fault with
    | .reset :: rest, _ => hostAccess run .reset rest s
    | _, some f => .fault f
    | [], none => .next (advance s)
    | .read a :: rest, none => hostAccess run (.read a) rest s
    | .write a v :: rest, none => hostAccess run (.write a v) rest s
  else .refused .illFormedConfig

end Sys2Proof.Machine
end

