-- ==== Sys2Proof/Machine/Step.lean ====
section
/-! DEFINITION. The step of the machine, one host access with one whole command (20_memory.md R55, R62), the same
machine one clock cycle at a time (41_spi_master.md R94), and the placing of a command word. -/

namespace Sys2Proof.Machine

/-- One step: the host's next access completes, and a command it issues runs whole (R55). -/
def step (s : State) : Host.Outcome State Fault Refusal := hostStep exec s

/-- One clock cycle: the host's next access completes or is held, and the sequencer runs one cycle (R94). -/
def cycleStep (s : State) : Host.Outcome State Fault Refusal := hostStep startCommand s

/-- `s` with a CMD write of the word `w` as the host's next access: SRB-CORE fetches nothing, so this is
where the next command comes from (R39, R55, log 2). -/
def State.withFetchWord (s : State) (_nbits w : Nat) : State :=
  setQueue (.write 0#5 (BitVec.ofNat 16 w) :: s.host.queue) s

end Sys2Proof.Machine
end

