-- ==== Sys2Proof/Machine/Display.lean ====
section
/-! DEFINITION. The display-sink contract (42_signal_tracker.md R109, D26): the code the sink draws for each bit of a
render snapshot. The sink is outside the block; the block only exposes REND (log 18). -/

namespace Sys2Proof.Machine

/-- The code of a bit `x` whose older neighbour is `y`: 0 low, 1 rising, 2 falling, 3 high (R109). -/
def displayCode (y x : Level) : Nat := 2 * y.toNat + x.toNat

/-- The codes of the `n` lowest bits of `h`, oldest first, `y` being the bit before them (R109). -/
def displayCodesFrom (h : Word) (y : Level) : Nat → List Nat
  | 0 => []
  | n + 1 => displayCode y (h.getLsbD n) :: displayCodesFrom h (h.getLsbD n) n

/-- The `W` symbols of a snapshot of width `W`, oldest first; the first symbol has `y = x` (R109). -/
def displayCodes (h : Word) (width : Nat) : List Nat := displayCodesFrom h (h.getLsbD (width - 1)) width

/-- What the sink draws for channel `c`, from the register REND[c] and the width of the channel (R109). -/
def displayChannel (c : Fin 8) (s : State) : List Nat :=
  displayCodes (regWord (.rend c) s) (widthOf s.cfg c.val)

end Sys2Proof.Machine
end

