-- ==== Sys2Proof/Machine/Hardware.lean ====
section
/-! DEFINITION. What the hardware itself does with a command word (60_exceptions.md R115 to R122, 92 D13): it checks
no contract, ignores an illegal word, and runs the command's pseudocode past a failed check. The spec gives
it for the implementer; `exec` and `step` do not follow it (R124, log 16). -/

namespace Sys2Proof.Machine

/-- The hardware's execution of a command: its effect, whatever its contract check says (D13). -/
def hardwareExec (i : Instr) (s : State) : State :=
  match i with
  | .nop => nopEffect s
  | .spiInit => spiInitEffect s
  | .spiBegin => spiBeginEffect s
  | .spiEnd => spiEndEffect s
  | .spiXfer out => spiXferEffect out s
  | .trkInit => trkInitEffect s
  | .trkSample => trkSampleEffect s
  | .trkDetect => trkDetectEffect s
  | .trkApply => trkApplyEffect s
  | .trkRender => trkRenderEffect s
  | .trkPoll => trkPollEffect s

/-- The hardware's reaction to a CMD write: an illegal word "is ignored" (R73, R115). -/
def hardwareIssue (w : Word) (s : State) : State :=
  match decode w with
  | .command i => hardwareExec i s
  | .illegal _ => s

end Sys2Proof.Machine
end

