-- ==== Sys2Proof/Machine/Assembler.lean ====
section
/-! DEFINITION. The assembler syntax of SRB-CMD programs (30_encoding.md R75) and the items a line stands for, the
pseudo-instructions of R76 among them (log 17). -/

namespace Sys2Proof.Machine

/-- What one line of a program stands for (R75, R76). -/
inductive AsmItem where
  | command (i : Instr)
  | rd (addr : Addr)
  | input (v : Byte)
  | miso (levels : List Level)
  | session (bytes : List Byte)
  | xchg (out : Byte)
  | trkStep
  | waitIdle
deriving DecidableEq, Repr

/-- White space inside a line. -/
def isBlank (c : Char) : Bool := c == ' ' || c == '\t'

/-- The text without blanks at either end. -/
def trimBlanks (cs : List Char) : List Char := ((cs.dropWhile isBlank).reverse.dropWhile isBlank).reverse

/-- The text before a comment; comments start with `;` (R75), so an annotation written after one is dropped
(DESIGN CHOICE, log 17). -/
def beforeComment (cs : List Char) : List Char := cs.takeWhile fun c => c != ';'

/-- The parts of a text between commas. -/
def splitCommas : List Char → List (List Char)
  | [] => [[]]
  | c :: cs =>
    if c == ',' then [] :: splitCommas cs
    else
      match splitCommas cs with
      | [] => [[c]]
      | part :: parts => (c :: part) :: parts

/-- The value of a digit, up to base 16. -/
def digitValue (c : Char) : Option Nat :=
  if '0' ≤ c ∧ c ≤ '9' then some (c.toNat - 48)
  else if 'a' ≤ c ∧ c ≤ 'f' then some (c.toNat - 87)
  else if 'A' ≤ c ∧ c ≤ 'F' then some (c.toNat - 55)
  else none

/-- The digits of a number in a base, `acc` being the value before them. -/
def digitsValue (base acc : Nat) : List Char → Option Nat
  | [] => some acc
  | c :: cs =>
    match digitValue c with
    | some d => if d < base then digitsValue base (base * acc + d) cs else none
    | none => none

/-- An integer literal: `0x` hexadecimal, `0b` binary, otherwise decimal (R10, R75). -/
def literalValue (cs : List Char) : Option Nat :=
  match cs with
  | [] => none
  | '0' :: 'x' :: c :: rest => digitsValue 16 0 (c :: rest)
  | '0' :: 'b' :: c :: rest => digitsValue 2 0 (c :: rest)
  | c :: rest => digitsValue 10 0 (c :: rest)

/-- A byte operand: a literal in 0..255; any other value is refused (R75). -/
def byteOperand (cs : List Char) : Option Byte :=
  match literalValue cs with
  | some n => if n < 256 then some (BitVec.ofNat 8 n) else none
  | none => none

/-- A level operand, 0 or 1. -/
def levelOperand (cs : List Char) : Option Level :=
  match literalValue cs with
  | some 0 => some false
  | some 1 => some true
  | some _ => none
  | none => none

/-- All the operands, each read by `f`; refused when one is. -/
def allOperands {α : Type} (f : List Char → Option α) : List (List Char) → Option (List α)
  | [] => some []
  | p :: ps =>
    match f p, allOperands f ps with
    | some v, some vs => some (v :: vs)
    | _, _ => none

/-- The commands without an operand under their two names (R75). -/
def fixedNames : List (String × Instr) :=
  [("nop", .nop), ("NOP", .nop), ("spi.init", .spiInit), ("SPI_INIT", .spiInit), ("spi.begin", .spiBegin),
   ("SPI_BEGIN", .spiBegin), ("spi.end", .spiEnd), ("SPI_END", .spiEnd), ("trk.init", .trkInit),
   ("TRK_INIT", .trkInit), ("trk.sample", .trkSample), ("TRK_SAMPLE", .trkSample), ("trk.detect", .trkDetect),
   ("TRK_DETECT", .trkDetect), ("trk.apply", .trkApply), ("TRK_APPLY", .trkApply), ("trk.render", .trkRender),
   ("TRK_RENDER", .trkRender), ("trk.poll", .trkPoll), ("TRK_POLL", .trkPoll)]

/-- The plain register names and their addresses (R48, R75). -/
def plainRegisterNames : List (String × Addr) :=
  [("CMD", 0x00#5), ("STATUS", 0x01#5), ("RXDATA", 0x02#5), ("PINS", 0x03#5), ("CUR", 0x04#5), ("PREV", 0x05#5),
   ("CHANGES", 0x06#5), ("CFG0", 0x07#5), ("CFG1", 0x18#5), ("CFG2", 0x19#5), ("WIDTH01", 0x1A#5),
   ("WIDTH23", 0x1B#5), ("WIDTH45", 0x1C#5), ("WIDTH67", 0x1D#5)]

/-- The entry of a table under a name. -/
def lookupName {α : Type} (name : List Char) : List (String × α) → Option α
  | [] => none
  | (n, v) :: rest => if n.toList == name then some v else lookupName name rest

/-- The address of a register by name, `HIST[c]` and `REND[c]` among them (R48, R75). -/
def registerAddr (cs : List Char) : Option Addr :=
  match cs with
  | ['H', 'I', 'S', 'T', '[', c, ']'] =>
    match digitsValue 8 0 [c] with
    | some n => some (BitVec.ofNat 5 (0x08 + n))
    | none => none
  | ['R', 'E', 'N', 'D', '[', c, ']'] =>
    match digitsValue 8 0 [c] with
    | some n => some (BitVec.ofNat 5 (0x10 + n))
    | none => none
  | name => lookupName name plainRegisterNames

/-- The item of a mnemonic with exactly one operand. -/
def oneOperand (name : List Char) (operand : List Char) : Option AsmItem :=
  if name == "spi.xfer".toList || name == "SPI_XFER".toList then
    (byteOperand operand).map fun b => .command (.spiXfer b)
  else if name == "spi.xchg".toList then (byteOperand operand).map .xchg
  else if name == "rd".toList then (registerAddr operand).map .rd
  else if name == "in".toList then (byteOperand operand).map .input
  else none

/-- The item of a mnemonic with no operand. -/
def noOperand (name : List Char) : Option AsmItem :=
  if name == "trk.step".toList then some .trkStep
  else if name == "wait".toList then some .waitIdle
  else if name == "spi.session".toList then some (.session [])
  else (lookupName name fixedNames).map .command

/-- The item of a mnemonic and its operands; `none` when the assembler refuses the line (R75, R76). -/
def assembleParts (name : List Char) (operands : List (List Char)) : Option AsmItem :=
  if name == "spi.session".toList then (allOperands byteOperand operands).map .session
  else if name == "miso".toList then
    if operands.length = 8 then (allOperands levelOperand operands).map .miso else none
  else
    match operands with
    | [] => noOperand name
    | [operand] => oneOperand name operand
    | _ :: _ :: _ => none

/-- What one line of a program gives. -/
inductive AsmLine where
  | blank
  | item (it : AsmItem)
  | refused
deriving DecidableEq, Repr

/-- One line of a program: at most one command or host action, then perhaps a comment (R75). DESIGN CHOICE: an `in` or
`miso` annotation is taken only as a line of its own; R75 says only that it may appear in a program, and the
listings of 95_test_vectors.md section 3 write it behind `;`, where this assembler drops it (log 17). -/
def assembleLine (line : String) : AsmLine :=
  let text := trimBlanks (beforeComment line.toList)
  let name := text.takeWhile fun c => !isBlank c
  let rest := trimBlanks (text.dropWhile fun c => !isBlank c)
  if text.isEmpty then .blank
  else
    match assembleParts name (if rest.isEmpty then [] else (splitCommas rest).map trimBlanks) with
    | some it => .item it
    | none => .refused

/-- The expansion of `spi.session b1, ..., bn` (R76). -/
def sessionCommands (bytes : List Byte) : List Instr :=
  .spiBegin :: (bytes.map Instr.spiXfer ++ [Instr.spiEnd])

end Sys2Proof.Machine
end

