-- ==== Sys2Proof/Machine/Pseudo.lean ====
section
/-! DEFINITION. What the host does for each item of a program (30_encoding.md R75, R76), over the machine's own
step: a command is a CMD write, `rd` a host read, `in` and `miso` list the environment's next levels, and
the pseudo-instructions are their expansions. -/

namespace Sys2Proof.Machine

/-- The host makes one access next. -/
def hostNext (a : HostAccess) (s : State) : Answer := step (setQueue (a :: s.host.queue) s)

/-- The sequencer's cycles until it is idle, at most `n` of them. -/
def untilIdle : Nat → State → State
  | 0, s => s
  | n + 1, s => if busy s then untilIdle n (advance s) else s

/-- The host issues a command; a CMD write is held while a command runs (R56). -/
def issue (i : Instr) (s : State) : Answer :=
  hostNext (.write 0#5 (encode i)) (untilIdle (cycleCount (.spiXfer 0#8) s.cfg.settleCycles) s)

/-- The commands of a list, one after another. -/
def issueAll : List Instr → State → Answer
  | [], s => .next s
  | i :: is, s => andThen (issue i s) (issueAll is)

/-- The meanings of a list of commands, one after another. -/
def execAll : List Instr → State → Answer
  | [], s => .next s
  | i :: is, s => andThen (exec i s) (execAll is)

/-- The value of the host's latest read. -/
def lastRead (s : State) : Word :=
  match s.host.readLog.getLast? with
  | some r => r.data
  | none => 0#16

/-- `trk.step`: the polling iteration split into host-visible steps (R76). -/
def trkStepItem (s : State) : Answer :=
  andThen (issueAll [.trkSample, .trkDetect] s) fun s =>
    andThen (hostNext (.read 0x01#5) s) fun s =>
      if (lastRead s).getLsbD 4 then issueAll [.trkApply, .trkRender] s else .next s

/-- `wait`: STATUS is read until its `BUSY` reads 0, at most `n` times (R76). -/
def waitItem : Nat → State → Answer
  | 0, s => .next s
  | n + 1, s => andThen (hostNext (.read 0x01#5) s) fun s =>
      if (lastRead s).getLsbD 0 then waitItem n s else .next s

/-- One item of a program. -/
def runItem (it : AsmItem) (s : State) : Answer :=
  match it with
  | .command i => issue i s
  | .rd a => hostNext (.read a) s
  | .input v => .next { s with env := { s.env with trk := s.env.trk ++ [v] } }
  | .miso bs => .next { s with env := { s.env with miso := s.env.miso ++ bs } }
  | .session bytes => issueAll (sessionCommands bytes) s
  | .xchg out => andThen (issue (.spiXfer out) s) (hostNext (.read 0x02#5))
  | .trkStep => trkStepItem s
  | .waitIdle => waitItem (cycleCount (.spiXfer 0#8) s.cfg.settleCycles + 1) s

/-- The items of a program, one after another. -/
def runItems : List AsmItem → State → Answer
  | [], s => .next s
  | it :: its, s => andThen (runItem it s) (runItems its)

/-- The lines of a program; `none` when the assembler refuses one (R75). -/
def assemble : List String → Option (List AsmItem)
  | [] => some []
  | l :: ls =>
    match assembleLine l, assemble ls with
    | .blank, some its => some its
    | .item it, some its => some (it :: its)
    | _, _ => none

end Sys2Proof.Machine
end

