-- ==== Sys2Proof/Machine/Trace.lean ====
section
/-! DEFINITION. What an observer of the pin trace reads in it (10_state.md R42): the events of a transfer as R86
gives them, the byte its samples make (R85), the loopback peer (R91), and the holds (R80, R135). -/

namespace Sys2Proof.Machine

/-- The events of one bit period that transmits `d` and samples `b` (R86). -/
def periodEvents (d b : Level) : List Event :=
  [.drive .spiMosi d, .hold, .drive .spiSck true, .hold, .sample .spiMiso b, .drive .spiSck false, .hold]

/-- The bits of a byte in serial order, most significant first (R52). -/
def serialBits (v : Byte) : List Level :=
  [v.getLsbD 7, v.getLsbD 6, v.getLsbD 5, v.getLsbD 4, v.getLsbD 3, v.getLsbD 2, v.getLsbD 1, v.getLsbD 0]

/-- The events of the bit periods that transmit `ds` and sample `bs` (R86). -/
def xferEvents : List Level → List Level → List Event
  | d :: ds, b :: bs => periodEvents d b ++ xferEvents ds bs
  | _, _ => []

/-- `b_0 ++ b_1 ++ ... ++ b_7`: the byte that eight samples make, the first in bit 7 (R85). -/
def byteOfSamples (bs : List Level) : Byte := bs.foldl shiftIn 0#8

/-- The next `n` levels of `SPI_MISO` the peer supplies, and the environment after them (R59). -/
def drawLevels : Nat → Env → List Level × Env
  | 0, e => ([], e)
  | n + 1, e =>
    let d := drawMiso e
    let r := drawLevels n d.2
    (d.1 :: r.1, r.2)

/-- The next `n` samples of `TRK_IN` the environment supplies, and the environment after them (R59). -/
def drawSamples : Nat → Env → List Byte × Env
  | 0, e => ([], e)
  | n + 1, e =>
    let d := drawTrk e
    let r := drawSamples n d.2
    (d.1 :: r.1, r.2)

/-- How many falls from 1 to 0 the levels `bs` make, `a` being the level before them (R110). -/
def fallsAfter (a : Level) : List Level → Nat
  | [] => 0
  | b :: bs => (if a && !b then 1 else 0) + fallsAfter b bs

/-- The levels differ each from the one before, `a` being the level before them (R111). -/
def alternates (a : Level) : List Level → Bool
  | [] => true
  | b :: bs => (b != a) && alternates b bs

/-- Every sample of data-in in the trace is the level last driven on data-out, `mosi` being the level driven
before it: the loopback peer (R91). -/
def echoes (mosi : Level) : List Event → Bool
  | [] => true
  | .drive .spiMosi v :: es => echoes v es
  | .sample .spiMiso b :: es => (b == mosi) && echoes mosi es
  | _ :: es => echoes mosi es

/-- Every drive of a pin in the trace is followed at once by a hold (R80). -/
def drivesHeld : List Event → Bool
  | [] => true
  | .drive _ _ :: .hold :: es => drivesHeld es
  | .drive _ _ :: _ => false
  | _ :: es => drivesHeld es

/-- The number of holds in a trace (R135). -/
def holdCount (es : List Event) : Nat := es.countP fun e => decide (e = .hold)

end Sys2Proof.Machine
end

