-- ==== Sys2Proof/Safety.lean ====
section
/-! DEFINITION. What counts as a safe run and a final state (10_state.md R41), the facts that hold between commands
(R43), and the invariant of the machine that yields them. -/

namespace Sys2Proof.Machine

/-- The state has no model fault recorded (R41). -/
def State.faultFree (s : State) : Prop := s.fault = none

/-- A final state of a run: no fault recorded, which is R41's one word on final states ("A state with
`FAULT != none` is never a final state of a run"). DESIGN CHOICE: the host has no access pending and no command
runs either; the spec does not say which unfaulted states are final (log 23). -/
def State.final (s : State) : Prop := s.host.queue = [] ∧ s.seq = .idle ∧ s.faultFree

/-- The states of a run of the machine whose step is `next`, from reset with any well-formed configuration,
any host and any environment. -/
inductive Reachable (next : State → Answer) : State → Prop where
  | reset (cfg : Cfg) (env : Env) (host : HostPort) (h : cfg.wf = true) :
      Reachable next (State.resetWith cfg env host)
  | step {s t : State} (hs : Reachable next s) (h : next s = .next t) : Reachable next t

/-- The facts of R43, clause by clause, that hold in a state between commands. -/
structure State.BetweenCommands (s : State) : Prop where
  session_rdy : s.spi.session = true → s.spi.spiRdy = true
  rdy_dirs : s.spi.spiRdy = true →
    s.spi.csDir = .output ∧ s.spi.sckDir = .output ∧ s.spi.mosiDir = .output ∧ s.spi.misoDir = .input
  session_iff : s.spi.session = true ↔ (s.spi.csLat = s.cfg.csActive ∧ s.spi.spiRdy = true)
  sck_low : s.spi.sckLat = false
  cur_masked : s.trk.cur &&& ~~~chMask s.cfg = 0#8
  prev_masked : s.trk.prev &&& ~~~chMask s.cfg = 0#8
  changes_masked : s.trk.changes &&& ~~~chMask s.cfg = 0#8
  hist_bound : ∀ c : Fin 8, c.val < s.cfg.nch → s.trk.hist[c].toNat < 2 ^ widthOf s.cfg c.val
  not_running : s.trk.trkRun = false → s.trk.cur = 0#8 ∧ s.trk.prev = 0#8 ∧ s.trk.changes = 0#8 ∧
    s.trk.hist = Vector.replicate 8 0#16 ∧ s.trk.rend = Vector.replicate 8 0#16

/-- The clock level of a running transfer, phase by phase: low until the action of `P_HIGH`, high until the
action of `P_LOW`, low from there (R84, R94). -/
def xferSck (p : Phase) (counting : Bool) : Level :=
  match p with
  | .drive => false
  | .high => counting
  | .low => !counting

/-- What holds of the SPI unit while the command of `CUR_CMD` runs (R94). -/
def State.RunningOk (s : State) : Prop :=
  match decode s.curCmd with
  | .command .spiBegin => s.spi.spiRdy = true ∧ s.spi.session = false ∧ s.spi.csLat = s.cfg.csActive ∧
      s.spi.sckLat = false ∧ s.spi.holdCnt ≠ 0#16
  | .command .spiEnd => s.spi.spiRdy = true ∧ s.spi.session = true ∧ s.spi.csLat = (!s.cfg.csActive) ∧
      s.spi.sckLat = false ∧ s.spi.holdCnt ≠ 0#16
  | .command (.spiXfer _) => s.spi.spiRdy = true ∧ s.spi.session = true ∧ s.spi.csLat = s.cfg.csActive ∧
      s.spi.sckLat = xferSck s.spi.phase (decide (s.spi.holdCnt ≠ 0#16))
  | _ => False

/-- What holds of the SPI unit while the sequencer is idle (R43). -/
def State.IdleOk (s : State) : Prop :=
  (s.spi.session = true ↔ (s.spi.csLat = s.cfg.csActive ∧ s.spi.spiRdy = true)) ∧
    s.spi.sckLat = false ∧ s.spi.holdCnt = 0#16

/-- The histories and snapshots keep their widths, and the slots of channels that do not exist stay 0 (R31, R32, D37). -/
def bankOk (cfg : Cfg) (bank : Vector Word 8) : Prop :=
  ∀ c : Fin 8, bank[c].toNat < 2 ^ widthOf cfg c.val

/-- The invariant of the SPI unit and the sequencer, over every state of a run (R43, R34, R24, R94). -/
structure State.SpiInv (s : State) : Prop where
  session_rdy : s.spi.session = true → s.spi.spiRdy = true
  rdy_dirs : s.spi.spiRdy = true →
    s.spi.csDir = .output ∧ s.spi.sckDir = .output ∧ s.spi.mosiDir = .output
  not_rdy_dirs : s.spi.spiRdy = false →
    s.spi.csDir = .input ∧ s.spi.sckDir = .input ∧ s.spi.mosiDir = .input
  miso_input : s.spi.misoDir = .input
  rx_reset : s.spi.rxValid = false → s.spi.rxData = 0#8
  hold_bound : s.spi.holdCnt.toNat ≤ s.cfg.settleCycles
  idle_ok : s.seq = .idle → s.IdleOk
  running_ok : s.seq = .run → s.RunningOk

/-- The invariant of the tracker unit, over every state of a run (R43, R23, R25, R34, R101). -/
structure State.TrkInv (s : State) : Prop where
  cur_masked : s.trk.cur &&& ~~~chMask s.cfg = 0#8
  prev_masked : s.trk.prev &&& ~~~chMask s.cfg = 0#8
  changes_masked : s.trk.changes &&& ~~~chMask s.cfg = 0#8
  chg_iff : s.trk.chg = decide (s.trk.changes ≠ 0#8)
  hist_ok : bankOk s.cfg s.trk.hist
  rend_ok : bankOk s.cfg s.trk.rend
  not_running : s.trk.trkRun = false → s.trk.cur = 0#8 ∧ s.trk.prev = 0#8 ∧ s.trk.changes = 0#8 ∧
    s.trk.hist = Vector.replicate 8 0#16 ∧ s.trk.rend = Vector.replicate 8 0#16
  running_rendered : s.trk.trkRun = true → s.trk.rendValid = true
  inputs : ∀ c : Fin 8, s.trk.inDir[c] = .input
  mirror_dirs : s.trk.out0Dir = (if s.trk.trkRun && s.cfg.mirrorEn then .output else .input) ∧
    s.trk.out1Dir = (if s.trk.trkRun && s.cfg.mirrorEn then .output else .input)
  mirror_lats : s.trk.trkRun = true → s.cfg.mirrorEn = true →
    s.trk.out0Lat = newestBit s.cfg.mirrorSrc0 s ∧ s.trk.out1Lat = newestBit s.cfg.mirrorSrc1 s

/-- The invariant of the machine: the configuration is well formed and both units keep theirs. -/
structure State.Inv (s : State) : Prop where
  config : s.cfg.wf = true
  spi : s.SpiInv
  trk : s.TrkInv

end Sys2Proof.Machine
end

