-- ==== Sys2Proof/Certificates/Slice0/Obligations.lean ====
section
/-! DEFINITION. The statements for the provers, each with the rule of spec/ it formalises. -/

open Sys2Proof Sys2Proof.Machine

/-! Encoding (30_encoding.md) -/

/-- Words written out from the opcode map of R71 and the fields of R67 decode to the commands they stand for. -/
def Obligations.WordsDecodeAsTheOpcodeMapSays : Prop :=
  decode 0b0000000000000000#16 = .command .nop ∧ decode 0b0000000000000001#16 = .command .spiInit ∧
    decode 0b0000000000000010#16 = .command .spiBegin ∧ decode 0b0000000000000011#16 = .command .spiEnd ∧
    decode 0b1010010100000100#16 = .command (.spiXfer 0xA5#8) ∧
    decode 0b0000000000000101#16 = .command .trkInit ∧ decode 0b0000000000000110#16 = .command .trkSample ∧
    decode 0b0000000000000111#16 = .command .trkDetect ∧ decode 0b0000000000001000#16 = .command .trkApply ∧
    decode 0b0000000000001001#16 = .command .trkRender ∧ decode 0b0000000000001010#16 = .command .trkPoll ∧
    decode 0b0000000000001011#16 = .illegal .reservedOpcode ∧ decode 0b0000000000010100#16 = .illegal .reservedBits ∧
    decode 0b0000000100000001#16 = .illegal .immediate

/-- Decode and encode agree in both directions: a word decodes to a command exactly when it is the command's
own word, for every command and every operand (R67, R71, R72). -/
def Obligations.DecodeInvertsEncode : Prop :=
  ∀ (i : Instr) (w : Word), decode w = .command i ↔ w = encode i

/-- R73 whole: which words are illegal, that the hardware ignores them, and that a CMD write of one raises
`ILLEGAL_COMMAND` in the model. -/
def Obligations.IllegalWordIsIgnoredByHardwareAndFaultsInTheModel : Prop :=
  ∀ w : Word,
    ((∃ why, decode w = .illegal why) ↔
      (w.toNat / 16 % 16 ≠ 0 ∨ 0xB ≤ w.toNat % 16 ∨ (w.toNat % 16 ≠ 4 ∧ w.toNat / 256 ≠ 0))) ∧
    ((∃ why, decode w = .illegal why) → ∀ s : State, hardwareIssue w s = s ∧
      ∀ rest, s.cfg.wf = true → s.fault = none → s.seq = .idle → s.host.queue = .write 0#5 w :: rest →
        step s = .next { s with host := { s.host with queue := rest }, fault := some (.illegalCommand w) })

/-- Exactly 266 of the 65536 words are legal, and they are those the two tests of R72 accept; the rows of the
opcode table accept the same words. -/
def Obligations.ExactlyTheWordsOfTheTableAreLegal : Prop :=
  (List.range 65536).countP (fun n => (decode (BitVec.ofNat 16 n)).toInstr.isSome) = 266 ∧
    ∀ w : Word, (legalWord w = true ↔ ∃ i, decode w = .command i) ∧
      (legalWord w = true ↔ (w.toNat ≤ 0x000A ∧ w.toNat ≠ 4) ∨ w &&& 0x00FF#16 = 0x0004#16)

/-! The step and the host port (20_memory.md) -/

/-- R55: a CMD write completed while BUSY = 0 issues the command it decodes to; the step is the command's
meaning, with the access taken from the host's pending ones (the list of accesses is the model's, log 2). -/
def Obligations.StepRunsTheDecodedCommand : Prop :=
  ∀ (s : State) (w : Word) (rest : List HostAccess) (i : Instr),
    s.cfg.wf = true → s.fault = none → s.seq = .idle → s.host.queue = .write 0#5 w :: rest →
    decode w = .command i → step s = exec i { s with host := { s.host with queue := rest } }

/-- The word `withFetchWord` places is the next command: the step runs it and nothing else (the model's choice, log 2). -/
def Obligations.PlacedWordRunsNext : Prop :=
  ∀ (s : State) (n w : Nat) (i : Instr), s.cfg.wf = true → s.fault = none → s.seq = .idle →
    decodeTableWord n w = some i → step (s.withFetchWord n w) = exec i s

/-- A host read has no side effect: it returns the register and changes no state of the block (R54), in the machine of
whole commands and in the machine of clock cycles. With the sequencer idle the whole next state is the old one but
for the host's own record of the read (log 2). With a command running, which only `cycleStep` reaches from reset, the
running command goes on by its cycle (the model's choice, log 5), and the value recorded is the register as it stands
before that cycle's effects (the model's reading, log 13). -/
def Obligations.HostReadHasNoSideEffect : Prop :=
  ∀ (s : State) (a : Addr) (rest : List HostAccess),
    s.cfg.wf = true → s.fault = none → s.host.queue = .read a :: rest →
    let read : HostPort := ⟨rest, s.host.readLog ++ [⟨a, readReg a s⟩]⟩
    (s.seq = .idle → step s = .next { s with host := read } ∧ cycleStep s = .next { s with host := read }) ∧
    (s.seq = .run → step s = .next { advance s with host := read } ∧ cycleStep s = .next { advance s with host := read })

/-- R49: reserved addresses and the slots of channels that do not exist read 0, and a write to any address
other than 0x00 completes at once (R44) and has no effect: with the sequencer idle the whole state stays, and with a
command running only that command goes on, by its cycle (the model's choice, log 5). -/
def Obligations.ReservedReadsZeroAndOtherWritesAreIgnored : Prop :=
  ∀ s : State, readReg 0x1E#5 s = 0#16 ∧ readReg 0x1F#5 s = 0#16 ∧
    (∀ c : Fin 8, s.cfg.nch ≤ c.val →
      readReg (BitVec.ofNat 5 (0x08 + c.val)) s = 0#16 ∧ readReg (BitVec.ofNat 5 (0x10 + c.val)) s = 0#16) ∧
    (∀ (a : Addr) (v : Word) (rest : List HostAccess), a ≠ 0#5 → s.cfg.wf = true → s.fault = none →
      s.host.queue = .write a v :: rest →
      let done : HostPort := { s.host with queue := rest }
      busReady (.write a v) s = true ∧
      (s.seq = .idle → step s = .next { s with host := done } ∧ cycleStep s = .next { s with host := done }) ∧
      (s.seq = .run →
        step s = .next { advance s with host := done } ∧ cycleStep s = .next { advance s with host := done }))

/-- R14: with no access pending and no command running, nothing changes (the step that changes nothing is the model's
reading, log 11). -/
def Obligations.NothingAdvancesByItself : Prop :=
  ∀ s : State, s.cfg.wf = true → s.fault = none → s.seq = .idle → s.host.queue = [] → step s = .next s

/-- R56: a CMD write presented while BUSY = 1 is held: `BUS_READY` is 0, the write stays pending, unqueued
behind nothing, and only the running command goes on (by a cycle in both machines, the model's choice of log 5). -/
def Obligations.CmdWriteWhileBusyIsHeld : Prop :=
  ∀ (s : State) (w : Word) (rest : List HostAccess),
    s.cfg.wf = true → s.fault = none → s.seq = .run → s.host.queue = .write 0#5 w :: rest →
    busReady (.write 0#5 w) s = false ∧ step s = .next (advance s) ∧ cycleStep s = .next (advance s) ∧
      (advance s).host = s.host

/-- R8: the well-formedness of a configuration, clause by clause, and that the model refuses any other. -/
def Obligations.IllFormedConfigurationIsRefused : Prop :=
  ∀ cfg : Cfg,
    (cfg.wf = true ↔
      (1 ≤ cfg.channels.length ∧ cfg.channels.length ≤ 8) ∧
      (∀ ch ∈ cfg.channels, 1 ≤ ch.width ∧ ch.width ≤ 16) ∧
      (∃! c : Fin cfg.channels.length, cfg.channels[c].policy = .any) ∧
      (cfg.mirrorSrc0 < cfg.channels.length ∧ cfg.mirrorSrc1 < cfg.channels.length) ∧
      (1 ≤ cfg.settleCycles ∧ cfg.settleCycles ≤ 65535) ∧ cfg.syncStages ≤ 3) ∧
    (cfg.wf = false → ∀ s : State, s.cfg = cfg →
      step s = .refused .illFormedConfig ∧ cycleStep s = .refused .illFormedConfig)

/-! Registers (10_state.md) -/

/-- R18: the layout of STATUS, bit by bit, the reserved bits reading 0. -/
def Obligations.StatusLayout : Prop :=
  ∀ (s : State) (n : Nat), (readReg 0x01#5 s).getLsbD n =
    (if n = 0 then decide (s.seq = .run) else if n = 1 then s.spi.spiRdy else if n = 2 then s.spi.session
      else if n = 3 then s.trk.trkRun else if n = 4 then s.trk.chg else if n = 5 then s.spi.rxValid
      else if n = 6 then s.trk.rendValid else false)

/-- R27: the layout of PINS, bit by bit, the reserved bits reading 0. -/
def Obligations.PinsLayout : Prop :=
  ∀ (s : State) (n : Nat), (readReg 0x03#5 s).getLsbD n =
    (if n = 0 then s.spi.csLat else if n = 1 then s.spi.sckLat else if n = 2 then s.spi.mosiLat
      else if n = 3 then s.trk.out0Lat else if n = 4 then s.trk.out1Lat
      else if n = 8 then decide (s.spi.csDir = .output ∧ s.spi.sckDir = .output ∧ s.spi.mosiDir = .output)
      else if n = 9 then decide (s.trk.out0Dir = .output ∧ s.trk.out1Dir = .output) else false)

/-- The data registers read as 10_state.md lays them out (R17, R26, R28 to R32): CMD reads 0, the 8-bit ones
zero-extended, the files at 0x08 and 0x10. -/
def Obligations.DataRegisterLayout : Prop :=
  ∀ s : State, readReg 0x00#5 s = 0#16 ∧ (readReg 0x02#5 s).toNat = s.spi.rxData.toNat ∧
    (readReg 0x04#5 s).toNat = s.trk.cur.toNat ∧ (readReg 0x05#5 s).toNat = s.trk.prev.toNat ∧
    (readReg 0x06#5 s).toNat = s.trk.changes.toNat ∧
    ∀ c : Fin 8, c.val < s.cfg.nch →
      readReg (BitVec.ofNat 5 (0x08 + c.val)) s = s.trk.hist[c] ∧
      readReg (BitVec.ofNat 5 (0x10 + c.val)) s = s.trk.rend[c]

/-- R33: the configuration registers of a well-formed configuration, field by field, and the channel masks. -/
def Obligations.ConfigurationRegisters : Prop :=
  ∀ s : State, s.cfg.wf = true →
    (readReg 0x07#5 s).toNat = s.cfg.nch + 16 * s.cfg.csActive.toNat + 32 * s.cfg.mirrorEn.toNat
      + 64 * s.cfg.syncStages + 256 * (anyMask s.cfg).toNat ∧
    (readReg 0x18#5 s).toNat = s.cfg.mirrorSrc0 + 16 * s.cfg.mirrorSrc1 ∧
    (readReg 0x19#5 s).toNat = s.cfg.settleCycles ∧
    (∀ k : Fin 4, (readReg (BitVec.ofNat 5 (0x1A + k.val)) s).toNat =
      widthOf s.cfg (2 * k.val) + 256 * widthOf s.cfg (2 * k.val + 1)) ∧
    ∀ c : Fin 8,
      (anyMask s.cfg).getLsbD c.val = decide (s.cfg.channels[c.val]?.map Chan.policy = some .any) ∧
      (fallMask s.cfg).getLsbD c.val = decide (s.cfg.channels[c.val]?.map Chan.policy = some .fall) ∧
      (chMask s.cfg).getLsbD c.val = decide (c.val < s.cfg.nch)

/-- R33's values for the default configuration. -/
def Obligations.DefaultConfigurationRegisterValues : Prop :=
  readReg 0x07#5 State.reset = 0x0184#16 ∧ readReg 0x18#5 State.reset = 0x0021#16 ∧
    readReg 0x19#5 State.reset = 0x00A0#16 ∧ readReg 0x1A#5 State.reset = 0x020C#16 ∧
    readReg 0x1B#5 State.reset = 0x0202#16 ∧ readReg 0x1C#5 State.reset = 0x0000#16 ∧
    readReg 0x1D#5 State.reset = 0x0000#16

/-- R35: the level of a wire is the latch when its pin is an output and `Z` when it is an input; a write to a
pin that is an input changes its latch, where it has one, and no wire. -/
def Obligations.WireLevelFollowsLatchAndDirection : Prop :=
  ∀ (s : State) (p : Pin), (pinDirOf p s = .output → wireLevel p s = pinLatOf p s) ∧
    (pinDirOf p s = .input → wireLevel p s = none) ∧
    (∀ v, pinLatOf p s ≠ none → pinLatOf p (pinWrite p v s) = some v) ∧
    (∀ v, pinDirOf p s = .input → ∀ q, wireLevel q (pinWrite p v s) = wireLevel q s)

/-! Reset (70_reset_and_hazards.md) -/

/-- R137: reset, from any state, even inside a hold or after a fault, sets every element of the block's state
to its reset value and keeps the configuration; it then drives no wire (R138). -/
def Obligations.ResetSetsEveryElement : Prop :=
  ∀ (s : State) (rest : List HostAccess), s.cfg.wf = true → s.host.queue = .reset :: rest →
    ∃ t, step s = .next t ∧ cycleStep s = .next t ∧
      t.cfg = s.cfg ∧ t.seq = .idle ∧ t.curCmd = 0#16 ∧ t.fault = none ∧ t.trace = [] ∧
      t.spi = ⟨false, false, false, 0#8, 0#8, 0#8, 0#3, .drive, 0#16, false, false, false, .input, .input, .input, .input⟩ ∧
      t.trk = ⟨false, false, false, 0#8, 0#8, 0#8, #v[0, 0, 0, 0, 0, 0, 0, 0], #v[0, 0, 0, 0, 0, 0, 0, 0],
        #v[.input, .input, .input, .input, .input, .input, .input, .input], .input, .input, false, false⟩ ∧
      (∀ p, wireLevel p t = none) ∧
      (∀ a : Addr, (a.toNat ≤ 0x06 ∨ (0x08 ≤ a.toNat ∧ a.toNat < 0x18)) → readReg a t = 0#16)

/-- `State.reset` is the state of R137 with the default configuration, and it keeps the invariant. -/
def Obligations.ResetStateKeepsTheInvariant : Prop :=
  State.reset.Inv ∧ ∀ a : Addr, a.toNat ≤ 0x06 → readReg a State.reset = 0#16

/-! Control and SPI commands (40_control.md, 41_spi_master.md) -/

/-- R77: `NOP` changes no state and emits no event, in every state; that the whole command leaves
`CUR_CMD` too is the model's reading, log 7. -/
def Obligations.NopChangesNothing : Prop := ∀ s : State, exec .nop s = .next s

/-- R81 and R120: the whole result of `SPI_INIT` outside a session, its fault inside one, and what the hardware
does in either case. -/
def Obligations.SpiInitResult : Prop :=
  ∀ s : State,
    let done : State := { s with
      curCmd := 0x0001#16
      spi := { s.spi with
        spiRdy := true, session := false, csLat := !s.cfg.csActive, sckLat := false, mosiLat := false,
        csDir := .output, sckDir := .output, mosiDir := .output, misoDir := .input }
      trace := s.trace ++ [.drive .spiCs (!s.cfg.csActive), .drive .spiSck false, .drive .spiMosi false,
        .dir .spiCs .output, .dir .spiSck .output, .dir .spiMosi .output, .dir .spiMiso .input] }
    (s.spi.session = false → exec .spiInit s = .next done) ∧
    (s.spi.session = true → exec .spiInit s = .next { s with fault := some (.initInSession 0x0001#16) }) ∧
    hardwareExec .spiInit s = done

/-- R82: the whole result of `SPI_BEGIN`, its faults, and (R118) what the hardware does in any case. That `HOLDCNT` ends
at 0 is the model's reading, log 8. -/
def Obligations.SpiBeginResult : Prop :=
  ∀ s : State,
    let done : State := { s with
      curCmd := 0x0002#16
      spi := { s.spi with session := true, csLat := s.cfg.csActive, holdCnt := 0#16 }
      trace := s.trace ++ [.drive .spiCs s.cfg.csActive, .hold] }
    (s.spi.spiRdy = true → s.spi.session = false → exec .spiBegin s = .next done) ∧
    (s.spi.spiRdy = false → exec .spiBegin s = .next { s with fault := some (.spiNotInitialised 0x0002#16) }) ∧
    (s.spi.spiRdy = true → s.spi.session = true →
      exec .spiBegin s = .next { s with fault := some (.nestedSession 0x0002#16) }) ∧
    hardwareExec .spiBegin s = done

/-- R83: the whole result of `SPI_END`, its faults, and (R119) what the hardware does in any case. That `HOLDCNT` ends
at 0 is the model's reading, log 8. -/
def Obligations.SpiEndResult : Prop :=
  ∀ s : State,
    let done : State := { s with
      curCmd := 0x0003#16
      spi := { s.spi with session := false, csLat := !s.cfg.csActive, holdCnt := 0#16 }
      trace := s.trace ++ [.drive .spiCs (!s.cfg.csActive), .hold] }
    (s.spi.spiRdy = true → s.spi.session = true → exec .spiEnd s = .next done) ∧
    (s.spi.spiRdy = false → exec .spiEnd s = .next { s with fault := some (.spiNotInitialised 0x0003#16) }) ∧
    (s.spi.spiRdy = true → s.spi.session = false →
      exec .spiEnd s = .next { s with fault := some (.endWithoutSession 0x0003#16) }) ∧
    hardwareExec .spiEnd s = done

/-- R84, R86 and R87: the whole result of `SPI_XFER` for every byte and every peer, its faults in the order of
R123, and (R116, R117) what the hardware does in any case. The last values of `BITCNT`, `PHASE` and `HOLDCNT` are the
model's reading, log 8. -/
def Obligations.SpiXferResult : Prop :=
  ∀ (s : State) (out : Byte),
    let d := drawLevels 8 s.env
    let done : State := { s with
      curCmd := out ++ 0x04#8
      spi := { s.spi with
        rxValid := true, rxData := byteOfSamples d.1, rxSr := byteOfSamples d.1, txSr := 0x00#8,
        bitCnt := 0#3, phase := .low, holdCnt := 0#16, sckLat := false, mosiLat := out.getLsbD 0 }
      env := d.2
      trace := s.trace ++ xferEvents (serialBits out) d.1 }
    (s.spi.spiRdy = true → s.spi.session = true → exec (.spiXfer out) s = .next done) ∧
    (s.spi.spiRdy = false →
      exec (.spiXfer out) s = .next { s with fault := some (.spiNotInitialised (out ++ 0x04#8)) }) ∧
    (s.spi.spiRdy = true → s.spi.session = false →
      exec (.spiXfer out) s = .next { s with fault := some (.xferOutsideSession (out ++ 0x04#8)) }) ∧
    hardwareExec (.spiXfer out) s = done

/-- R85: the received byte as a function of the eight samples, the first in bit 7. -/
def Obligations.ReceivedByteOfTheSamples : Prop :=
  ∀ bs : List Level, bs.length = 8 →
    (∀ k, k < 8 → (byteOfSamples bs).getLsbD (7 - k) = bs.getD k false) ∧
    (byteOfSamples bs).toNat = ((List.range 8).map fun k => (bs.getD k false).toNat * 2 ^ (7 - k)).sum

/-- R91: against a peer that drives data-in with whatever was last written to data-out, every transfer inside
a session returns the byte it sent. The peer is any environment whose samples in the transfer's own trace
are echoes. -/
def Obligations.LoopbackReturnsTheByteSent : Prop :=
  ∀ (s t : State) (out : Byte) (m : Level) (es : List Event),
    s.spi.spiRdy = true → s.spi.session = true → exec (.spiXfer out) s = .next t →
    t.trace = s.trace ++ es → echoes m es = true → readReg 0x02#5 t = out.setWidth 16

/-- R80 and R135: every pin change of a command of a session is followed by a hold, and every command ends after
its number of holds, 24 for `SPI_XFER`, one for `SPI_BEGIN` and `SPI_END`, none for any other. -/
def Obligations.HoldsOfEveryCommand : Prop :=
  ∀ (i : Instr) (s t : State), exec i s = .next t → s.fault = none → t.fault = none →
    ∃ es, t.trace = s.trace ++ es ∧
      (∀ out, i = .spiXfer out → holdCount es = 24 ∧ es.length = 56 ∧ drivesHeld es = true) ∧
      (i = .spiBegin ∨ i = .spiEnd → holdCount es = 1 ∧ drivesHeld es = true) ∧
      ((∀ out, i ≠ .spiXfer out) → i ≠ .spiBegin → i ≠ .spiEnd → holdCount es = 0)

/-- R76, R90, R93: a session of any bytes runs to its end, and its trace is the assertion of chip-select and a
hold, the transfers with nothing between them, and the deassertion and a hold. -/
def Obligations.SessionOfAnyBytes : Prop :=
  ∀ (s : State) (bytes : List Byte), s.spi.spiRdy = true → s.spi.session = false →
    ∃ (t : State) (bss : List (List Level)), execAll (sessionCommands bytes) s = .next t ∧
      bss.length = bytes.length ∧ (∀ bs ∈ bss, bs.length = 8) ∧
      t.trace = s.trace ++ [Event.drive .spiCs s.cfg.csActive, Event.hold]
        ++ ((bytes.zip bss).flatMap fun p => xferEvents (serialBits p.1) p.2)
        ++ [Event.drive .spiCs (!s.cfg.csActive), Event.hold] ∧
      t.spi.session = false ∧ t.spi.csLat = (!s.cfg.csActive) ∧ t.fault = s.fault ∧ t.trk = s.trk ∧
      (∀ bs, bss.getLast? = some bs → t.spi.rxData = byteOfSamples bs)

/-! Tracker functions and commands (42_signal_tracker.md) -/

/-- R96 and R97: the change mask is, lane by lane, the event of the lane's policy; lanes beyond the channels
are 0. -/
def Obligations.DetectIsTheEventOfEveryLane : Prop :=
  (∀ a b, event .any a b = (a != b)) ∧ (∀ a b, event .fall a b = (a && !b)) ∧
    ∀ (cfg : Cfg) (previous current : Byte) (c : Fin 8),
      (detect cfg previous current).getLsbD c.val =
        match cfg.channels[c.val]? with
        | some ch => event ch.policy (previous.getLsbD c.val) (current.getLsbD c.val)
        | none => false

/-- R99 and R100: a history update shifts left, inserts the level at bit 0 and keeps W bits; a seed is all 0
or all 1 in W bits. -/
def Obligations.PushAndSeedKeepTheWidth : Prop :=
  ∀ (h : Word) (l : Level) (width : Nat), width ≤ 16 →
    (push h l width).toNat = (2 * h.toNat + l.toNat) % 2 ^ width ∧
    (seed l width).toNat = if l then 2 ^ width - 1 else 0

/-- R103 and R122: the whole result of `TRK_INIT` for every well-formed configuration and every sample, its fault when
the tracker runs, and what the hardware does in either case (it seeds again). That the event `SampleAll` carries the
unmasked sample is the model's reading, log 9. -/
def Obligations.TrkInitResult : Prop :=
  ∀ s : State,
    let t := hardwareExec .trkInit s
    (s.trk.trkRun = false → exec .trkInit s = .next t) ∧
    (s.trk.trkRun = true → exec .trkInit s = .next { s with fault := some (.trackerReinit 0x0005#16) }) ∧
    (s.cfg.wf = true →
      (∀ c : Fin 8, t.trk.cur.getLsbD c.val = (decide (c.val < s.cfg.nch) && (drawTrk s.env).1.getLsbD c.val)) ∧
      t.trk.prev = t.trk.cur ∧ t.trk.changes = 0#8 ∧ t.trk.chg = false ∧ t.trk.rendValid = true ∧ t.trk.trkRun = true ∧
      (∀ c : Fin 8, c.val < s.cfg.nch →
        t.trk.hist[c].toNat = (if (drawTrk s.env).1.getLsbD c.val then 2 ^ widthOf s.cfg c.val - 1 else 0) ∧
        t.trk.rend[c] = t.trk.hist[c] ∧ t.trk.inDir[c] = .input) ∧
      (∀ c : Fin 8, s.cfg.nch ≤ c.val → t.trk.hist[c] = s.trk.hist[c] ∧ t.trk.rend[c] = s.trk.rend[c] ∧
        t.trk.inDir[c] = s.trk.inDir[c]) ∧
      (s.cfg.mirrorEn = true → t.trk.out0Lat = newestBit s.cfg.mirrorSrc0 t ∧
        t.trk.out1Lat = newestBit s.cfg.mirrorSrc1 t ∧ t.trk.out0Dir = .output ∧ t.trk.out1Dir = .output) ∧
      (s.cfg.mirrorEn = false → t.trk.out0Lat = s.trk.out0Lat ∧ t.trk.out1Lat = s.trk.out1Lat ∧
        t.trk.out0Dir = s.trk.out0Dir ∧ t.trk.out1Dir = s.trk.out1Dir) ∧
      t.trace = s.trace ++ ((channelPins s.cfg).map fun c => Event.dir (.trkIn c) .input)
        ++ [Event.sampleAll (drawTrk s.env).1]
        ++ (if s.cfg.mirrorEn then [Event.drive .trkOut0 (newestBit s.cfg.mirrorSrc0 t),
            Event.drive .trkOut1 (newestBit s.cfg.mirrorSrc1 t), Event.dir .trkOut0 .output,
            Event.dir .trkOut1 .output] else []) ∧
      t.env = (drawTrk s.env).2 ∧ t.curCmd = 0x0005#16 ∧
      t.cfg = s.cfg ∧ t.seq = s.seq ∧ t.spi = s.spi ∧ t.fault = s.fault ∧ t.host = s.host)

/-- R104: the whole result of `TRK_SAMPLE`; R121: its fault before `TRK_INIT`, and what the hardware does in any case.
That the event `SampleAll` carries the unmasked sample is the model's reading, log 9. -/
def Obligations.TrkSampleResult : Prop :=
  ∀ s : State,
    let done : State := { s with
      curCmd := 0x0006#16
      trk := { s.trk with prev := s.trk.cur, cur := (drawTrk s.env).1 &&& chMask s.cfg }
      env := (drawTrk s.env).2
      trace := s.trace ++ [.sampleAll (drawTrk s.env).1] }
    (s.trk.trkRun = true → exec .trkSample s = .next done) ∧
    (s.trk.trkRun = false → exec .trkSample s = .next { s with fault := some (.trackerNotRunning 0x0006#16) }) ∧
    hardwareExec .trkSample s = done

/-- R105: the whole result of `TRK_DETECT`; R121: its fault before `TRK_INIT`, and what the hardware does in any case. -/
def Obligations.TrkDetectResult : Prop :=
  ∀ s : State,
    let done : State := { s with
      curCmd := 0x0007#16
      trk := { s.trk with
        changes := detect s.cfg s.trk.prev s.trk.cur, chg := decide (detect s.cfg s.trk.prev s.trk.cur ≠ 0#8) } }
    (s.trk.trkRun = true → exec .trkDetect s = .next done) ∧
    (s.trk.trkRun = false → exec .trkDetect s = .next { s with fault := some (.trackerNotRunning 0x0007#16) }) ∧
    hardwareExec .trkDetect s = done

/-- R106 with R98, R99 and R101: the whole result of `TRK_APPLY`, channel by channel, and its frame; R121: its fault
before `TRK_INIT`, and that the hardware then runs the command on the histories as they stand. -/
def Obligations.TrkApplyResult : Prop :=
  ∀ s : State,
    let t := hardwareExec .trkApply s
    (s.trk.trkRun = true → exec .trkApply s = .next t) ∧
    (s.trk.trkRun = false → exec .trkApply s = .next { s with fault := some (.trackerNotRunning 0x0008#16) }) ∧
    (s.cfg.wf = true →
      (∀ (c : Fin 8) (ch : Chan), s.cfg.channels[c.val]? = some ch → s.trk.changes.getLsbD c.val = true →
        t.trk.hist[c].toNat =
          (2 * s.trk.hist[c].toNat + (if ch.policy = .any then (s.trk.cur.getLsbD c.val).toNat else 0)) % 2 ^ ch.width) ∧
      (∀ c : Fin 8, (s.cfg.nch ≤ c.val ∨ s.trk.changes.getLsbD c.val = false) → t.trk.hist[c] = s.trk.hist[c]) ∧
      t.trace = s.trace ++ (if s.cfg.mirrorEn then [.drive .trkOut0 (newestBit s.cfg.mirrorSrc0 t),
        .drive .trkOut1 (newestBit s.cfg.mirrorSrc1 t)] else []) ∧
      t.trk = { s.trk with
        hist := t.trk.hist
        out0Lat := if s.cfg.mirrorEn then newestBit s.cfg.mirrorSrc0 t else s.trk.out0Lat
        out1Lat := if s.cfg.mirrorEn then newestBit s.cfg.mirrorSrc1 t else s.trk.out1Lat } ∧
      t = { s with curCmd := 0x0008#16, trk := t.trk, trace := t.trace })

/-- R107: the whole result of `TRK_RENDER` and its frame; R121: its fault before `TRK_INIT`, and that the hardware then
copies the histories as they stand. -/
def Obligations.TrkRenderResult : Prop :=
  ∀ s : State,
    let t := hardwareExec .trkRender s
    (s.trk.trkRun = true → exec .trkRender s = .next t) ∧
    (s.trk.trkRun = false → exec .trkRender s = .next { s with fault := some (.trackerNotRunning 0x0009#16) }) ∧
    (∀ c : Fin 8, c.val < s.cfg.nch → t.trk.rend[c] = s.trk.hist[c]) ∧
    (∀ c : Fin 8, s.cfg.nch ≤ c.val → t.trk.rend[c] = s.trk.rend[c]) ∧
    t = { s with curCmd := 0x0009#16, trk := { s.trk with rend := t.trk.rend, rendValid := true } }

/-- R108: the whole result of `TRK_POLL` with a change and without one, and its frame; R121: its fault before `TRK_INIT`,
and that the hardware then runs the command on the registers as they stand. That the event `SampleAll` carries the
unmasked sample is the model's reading, log 9. -/
def Obligations.TrkPollResult : Prop :=
  ∀ s : State,
    let v := (drawTrk s.env).1 &&& chMask s.cfg
    let m := detect s.cfg s.trk.cur v
    let t := hardwareExec .trkPoll s
    (s.trk.trkRun = true → exec .trkPoll s = .next t) ∧
    (s.trk.trkRun = false → exec .trkPoll s = .next { s with fault := some (.trackerNotRunning 0x000A#16) }) ∧
    (s.cfg.wf = true →
      t.trk.prev = s.trk.cur ∧ t.trk.cur = v ∧ t.trk.changes = m ∧ t.trk.chg = decide (m ≠ 0#8) ∧
      t.env = (drawTrk s.env).2 ∧
      (m = 0#8 → t = { s with
        curCmd := 0x000A#16, env := t.env, trace := s.trace ++ [.sampleAll (drawTrk s.env).1],
        trk := { s.trk with prev := s.trk.cur, cur := v, changes := 0#8, chg := false } }) ∧
      (m ≠ 0#8 →
        (∀ (c : Fin 8) (ch : Chan), s.cfg.channels[c.val]? = some ch → t.trk.rend[c] = t.trk.hist[c] ∧
          t.trk.hist[c].toNat = if m.getLsbD c.val then
            (2 * s.trk.hist[c].toNat + (if ch.policy = .any then (v.getLsbD c.val).toNat else 0)) % 2 ^ ch.width
            else s.trk.hist[c].toNat) ∧
        (∀ c : Fin 8, s.cfg.nch ≤ c.val → t.trk.hist[c] = s.trk.hist[c] ∧ t.trk.rend[c] = s.trk.rend[c]) ∧
        t.trk = { s.trk with
          prev := s.trk.cur, cur := v, changes := m, chg := true, rendValid := true
          hist := t.trk.hist, rend := t.trk.rend
          out0Lat := if s.cfg.mirrorEn then newestBit s.cfg.mirrorSrc0 t else s.trk.out0Lat
          out1Lat := if s.cfg.mirrorEn then newestBit s.cfg.mirrorSrc1 t else s.trk.out1Lat } ∧
        t = { s with curCmd := 0x000A#16, env := t.env, trk := t.trk, trace := s.trace
          ++ [.sampleAll (drawTrk s.env).1] ++ (if s.cfg.mirrorEn then
            [.drive .trkOut0 (newestBit s.cfg.mirrorSrc0 t), .drive .trkOut1 (newestBit s.cfg.mirrorSrc1 t)] else []) }))

/-- R108: the end state of `TRK_POLL` is that of the split commands: of all four when a change was found, of the
first two when none was. `CUR_CMD` holds the last command's word in each case. -/
def Obligations.PollEqualsTheSplitCommands : Prop :=
  ∀ s : State, s.trk.trkRun = true → ∃ t u, exec .trkPoll s = .next t ∧
    execAll (if t.trk.changes = 0#8 then [.trkSample, .trkDetect] else [.trkSample, .trkDetect, .trkApply, .trkRender]) s
      = .next u ∧ { u with curCmd := t.curCmd } = t

/-- R76: the pseudo-instruction `trk.step` has the same end state as `trk.poll`, in the block's registers, pins and
trace; the host has read STATUS once. -/
def Obligations.TrkStepEqualsPoll : Prop :=
  ∀ s : State, s.cfg.wf = true → s.fault = none → s.seq = .idle → s.trk.trkRun = true →
    ∃ t u, exec .trkPoll s = .next t ∧ trkStepItem s = .next u ∧ u.trk = t.trk ∧ u.spi = t.spi ∧ u.trace = t.trace ∧
      u.env = t.env ∧ u.fault = none ∧ u.seq = .idle ∧ u.host.queue = s.host.queue ∧
      u.host.readLog.length = s.host.readLog.length + 1

/-- R110, any-transition channel: `TRK_INIT` makes the newest history bit the sampled level, and every `TRK_POLL`
keeps it so. -/
def Obligations.AnyChannelHistoryShowsTheSampledLevel : Prop :=
  ∀ (s t : State) (c : Fin 8) (ch : Chan), s.cfg.wf = true → s.fault = none →
    s.cfg.channels[c.val]? = some ch → ch.policy = .any →
    (exec .trkInit s = .next t → t.fault = none → t.trk.hist[c].getLsbD 0 = t.trk.cur.getLsbD c.val) ∧
    (exec .trkPoll s = .next t → t.fault = none → s.trk.hist[c].getLsbD 0 = s.trk.cur.getLsbD c.val →
      t.trk.hist[c].getLsbD 0 = t.trk.cur.getLsbD c.val)

/-- R110, falling-edge channel: after any number of polls the history is the one before them shifted left once for
every fall among the samples, in W bits. -/
def Obligations.FallChannelHistoryCountsTheFalls : Prop :=
  ∀ (s : State) (n : Nat) (c : Fin 8) (ch : Chan), s.cfg.wf = true → s.trk.trkRun = true →
    s.cfg.channels[c.val]? = some ch → ch.policy = .fall → s.trk.hist[c].toNat < 2 ^ ch.width →
    ∃ t, execAll (List.replicate n .trkPoll) s = .next t ∧
      t.trk.hist[c].toNat = s.trk.hist[c].toNat * 2 ^ fallsAfter (s.trk.cur.getLsbD c.val)
        ((drawSamples n s.env).1.map fun v => v.getLsbD c.val) % 2 ^ ch.width

/-- R111: after `TRK_INIT` and W polls whose samples alternate on the any-transition channel of width W, its history
is the alternating pattern of width W, starting at bit W-1 with the level opposite the seed. -/
def Obligations.AlternatingSamplesGiveTheAlternatingPattern : Prop :=
  ∀ (s : State) (c : Fin 8) (ch : Chan) (v : Byte) (vs : List Byte) (e : Env),
    s.cfg.wf = true → s.trk.trkRun = false → s.cfg.channels[c.val]? = some ch → ch.policy = .any →
    drawSamples (ch.width + 1) s.env = (v :: vs, e) →
    alternates (v.getLsbD c.val) (vs.map fun u => u.getLsbD c.val) = true →
    ∃ t, execAll (.trkInit :: List.replicate ch.width .trkPoll) s = .next t ∧
      t.trk.hist[c].toNat < 2 ^ ch.width ∧
      ∀ j, j < ch.width → t.trk.hist[c].getLsbD (ch.width - 1 - j) = (v.getLsbD c.val != decide (j % 2 = 0))

/-- R109: the symbols the display sink draws for a snapshot. -/
def Obligations.DisplayCodesOfASnapshot : Prop :=
  ∀ (h : Word) (width : Nat), (displayCodes h width).length = width ∧
    ∀ j, j < width → (displayCodes h width)[j]? = some
      (2 * (h.getLsbD (if j = 0 then width - 1 else width - j)).toNat + (h.getLsbD (width - 1 - j)).toNat)

/-! Faults (60_exceptions.md) -/

/-- R114: the code of every model fault and the command word it records. -/
def Obligations.FaultCodesAndWords : Prop :=
  ∀ w : Word,
    [Fault.illegalCommand w, .spiNotInitialised w, .xferOutsideSession w, .nestedSession w, .endWithoutSession w,
      .initInSession w, .trackerNotRunning w, .trackerReinit w].map (fun f => (faultCode f, faultWord f)) =
    [(1, w), (2, w), (3, w), (4, w), (5, w), (6, w), (7, w), (8, w)]

/-- R124: a fault is precise. A command that raises one records it with its own word and changes nothing else,
and a command that raises none runs exactly as the hardware does. -/
def Obligations.FaultsArePrecise : Prop :=
  ∀ (i : Instr) (s : State), (∃ f, exec i s = .next { s with fault := some f } ∧ faultWord f = encode i) ∨
    (exec i s = .next (hardwareExec i s) ∧ (hardwareExec i s).fault = s.fault)

/-- R124 and R125: a state with a fault recorded has no further step, and only reset leaves it, with `FAULT` = none. The
stop `.fault` is the model's form of "no further step", log 4. -/
def Obligations.OnlyResetLeavesAFault : Prop :=
  ∀ (s : State) (f : Fault), s.cfg.wf = true → s.fault = some f →
    ((∀ rest, s.host.queue ≠ .reset :: rest) → step s = .fault f ∧ cycleStep s = .fault f) ∧
    (∀ t, step s = .next t → (∃ rest, s.host.queue = .reset :: rest) ∧ t.fault = none)

/-- R102 and R121: before `TRK_INIT` every other tracker command faults, and `TRK_INIT` alone moves the tracker to
running. -/
def Obligations.TrackerRunsOnlyAfterTrkInit : Prop :=
  ∀ (i : Instr) (s t : State), s.trk.trkRun = false → exec i s = .next t →
    (t.trk.trkRun = true → i = .trkInit) ∧
    (i ∈ [Instr.trkSample, .trkDetect, .trkApply, .trkRender, .trkPoll] →
      t = { s with fault := some (.trackerNotRunning (encode i)) })

/-! Whole-machine rules -/

/-- The frame of every command: no command touches the configuration, the sequencer's `SEQ` or the host's side; an
SPI command leaves the tracker unit and the environment's samples, a tracker command leaves the SPI unit and the
peer's levels. -/
def Obligations.FrameOfEveryCommand : Prop :=
  ∀ (i : Instr) (s t : State), exec i s = .next t →
    t.cfg = s.cfg ∧ t.seq = s.seq ∧ t.host = s.host ∧
    ((i ∈ [Instr.spiInit, .spiBegin, .spiEnd] ∨ ∃ out, i = .spiXfer out) →
      t.trk = s.trk ∧ t.env.trk = s.env.trk ∧ t.env.trkCount = s.env.trkCount ∧
      ∀ a : Addr, 0x04 ≤ a.toNat → readReg a t = readReg a s) ∧
    (i ∈ [Instr.trkInit, .trkSample, .trkDetect, .trkApply, .trkRender, .trkPoll] →
      t.spi = s.spi ∧ t.env.miso = s.env.miso ∧ t.env.misoCount = s.env.misoCount ∧
      ∀ a : Addr, (a = 0x00#5 ∨ a = 0x02#5 ∨ a = 0x07#5 ∨ 0x18 ≤ a.toNat) → readReg a t = readReg a s)

/-- R66: no command of one unit reads the other unit's state: replacing it whole in the start state replaces it,
and nothing else, in the end state. -/
def Obligations.UnitsShareNoState : Prop :=
  ∀ (i : Instr) (s t : State), exec i s = .next t →
    (i ∈ [Instr.spiInit, .spiBegin, .spiEnd] ∨ (∃ out, i = .spiXfer out) →
      ∀ k : TrkUnit, exec i { s with trk := k } = .next { t with trk := k }) ∧
    (i ∈ [Instr.trkInit, .trkSample, .trkDetect, .trkApply, .trkRender, .trkPoll] →
      ∀ k : SpiUnit, exec i { s with spi := k } = .next { t with spi := k })

/-- R20, R22, R24, R25: `SPI_RDY`, `TRK_RUN`, `RX_VALID` and `REND_VALID` are never written 0 except by reset; R42: the
trace only grows except by reset; R7: nothing writes the configuration. -/
def Obligations.OnlyResetClearsStickyState : Prop :=
  ∀ s t : State, step s = .next t ∨ cycleStep s = .next t →
    t.cfg = s.cfg ∧ ((∀ rest, s.host.queue ≠ .reset :: rest) →
      (s.spi.spiRdy = true → t.spi.spiRdy = true) ∧ (s.trk.trkRun = true → t.trk.trkRun = true) ∧
      (s.spi.rxValid = true → t.spi.rxValid = true) ∧ (s.trk.rendValid = true → t.trk.rendValid = true) ∧
      s.trace <+: t.trace)

/-- Every step of the machine keeps the invariant of both units, from every state that has it (R43 and the rules of
the fields it names). -/
def Obligations.StepKeepsTheInvariant : Prop :=
  ∀ s t : State, s.Inv → step s = .next t → t.Inv

/-- Every clock cycle of the machine keeps the invariant, also inside a running command. -/
def Obligations.CycleKeepsTheInvariant : Prop :=
  ∀ s t : State, s.Inv → cycleStep s = .next t → t.Inv

/-- R43: in every state between commands reached from reset, with any configuration, host and environment, its facts
hold, at the level of whole commands and of clock cycles alike. -/
def Obligations.FactsBetweenCommandsOfEveryRun : Prop :=
  ∀ s : State, (Reachable step s ∨ Reachable cycleStep s) → s.seq = .idle → s.fault = none → s.BetweenCommands

/-! The cycle-level sequencer (41_spi_master.md R94, 70_reset_and_hazards.md R150) -/

/-- R94 and R150: in every idle state in which the command's contract checks pass, the acceptance cycle answers a next
state with the command's word in `CUR_CMD`; from it the sequencer takes exactly the cycles of R150, is busy in all of
them but the last, and ends in the very state of the one-step command, its trace and all. The two machines, the end
values of the sequencer's fields and `CUR_CMD` after `NOP` are logs 5, 8 and 7. -/
def Obligations.CycleLevelRefinesTheCommandStep : Prop :=
  ∀ (i : Instr) (s : State), s.cfg.wf = true → s.seq = .idle → s.spi.holdCnt = 0#16 → s.fault = none →
    legalIn i s = true → ∃ u, startCommand i s = .next u ∧ u.fault = none ∧ u.curCmd = encode i ∧
      let last := cycleCount i s.cfg.settleCycles - 1
      (i ≠ .nop → exec i s = .next (advanceN last u)) ∧
      (i = .nop → exec i s = .next { advanceN last u with curCmd := s.curCmd }) ∧
      (∀ k, k < last → busy (advanceN k u) = true) ∧ busy (advanceN last u) = false

/-- The acceptance cycle raises exactly the faults of the one-step command (R124), and it raises one exactly in the states
in which a contract check of the command rules fails. -/
def Obligations.AcceptanceRaisesTheSameFaults : Prop :=
  ∀ (i : Instr) (s : State), s.fault = none →
    (legalIn i s = false ↔ ∃ f, startCommand i s = .next { s with fault := some f }) ∧
    ∀ f : Fault, startCommand i s = .next { s with fault := some f } ↔ exec i s = .next { s with fault := some f }

/-- R57: in every idle state in which the command's contract checks pass, it is accepted, and in every cycle of it before
its commit every register but STATUS and PINS returns the value it had before the command began, and STATUS shows the
old fields with `BUSY` = 1. -/
def Obligations.ReadsDuringACommandSeeTheOldRegisters : Prop :=
  ∀ (i : Instr) (s : State), s.cfg.wf = true → s.seq = .idle → s.spi.holdCnt = 0#16 → s.fault = none →
    legalIn i s = true → ∃ u, startCommand i s = .next u ∧
      ∀ k, k < cycleCount i s.cfg.settleCycles - 1 →
        readReg 0x01#5 (advanceN k u) = readReg 0x01#5 s ||| 0x0001#16 ∧
        ∀ a : Addr, a ≠ 0x01#5 → a ≠ 0x03#5 → readReg a (advanceN k u) = readReg a s

/-- R79: a hold keeps every latch and direction unchanged, in every cycle of a running command in which the hold counter
counts. That its `Hold` event is in the trace before the counter runs, so that such a cycle appends none, is the model's
choice, log 22. -/
def Obligations.HoldKeepsEveryPin : Prop :=
  ∀ s : State, s.seq = .run → s.spi.holdCnt ≠ 0#16 →
    (∀ p, pinDirOf p (advance s) = pinDirOf p s ∧ pinLatOf p (advance s) = pinLatOf p s) ∧
    (advance s).trace = s.trace ∧ (advance s).env = s.env

/-- R56 and R135: from every state of a running command the sequencer is idle again after at most 24 × (1 + S) cycles, the
accesses pending still pending, so a held CMD write is always accepted. -/
def Obligations.EveryCommandEnds : Prop :=
  ∀ s : State, s.Inv → s.seq = .run →
    ∃ n, n ≤ 24 * (1 + s.cfg.settleCycles) ∧ (advanceN n s).seq = .idle ∧ (advanceN n s).host = s.host ∧
      (advanceN n s).fault = s.fault

/-! Assembler (30_encoding.md R75) -/

/-- R75: the mnemonics assemble to the words of R71, an operand out of range or on another mnemonic is refused, and a
comment is ignored. -/
def Obligations.AssemblerLines : Prop :=
  (["nop", "spi.init", "spi.begin", "spi.end", "trk.init", "trk.sample", "trk.detect", "trk.apply", "trk.render",
      "trk.poll"].map assembleLine =
    [Instr.nop, .spiInit, .spiBegin, .spiEnd, .trkInit, .trkSample, .trkDetect, .trkApply, .trkRender, .trkPoll].map
      fun i => AsmLine.item (.command i)) ∧
    assembleLine "spi.xfer 0xA5 ; comment" = .item (.command (.spiXfer 0xA5#8)) ∧
    assembleLine "spi.xfer 255" = .item (.command (.spiXfer 0xFF#8)) ∧ assembleLine "spi.xfer 256" = .refused ∧
    assembleLine "nop 1" = .refused ∧ assembleLine "rd HIST[0]" = .item (.rd 0x08#5)
end

