-- ==== Sys2Proof/Laws/State.lean ====
section
/-! SUPPORT. One lemma per field of the state for each shared operation, so that no later proof unfolds a record
update. -/

namespace Sys2Proof.Machine

variable (s : State)

@[simp] theorem emit_cfg (e : Event) : (emit e s).cfg = s.cfg := rfl
@[simp] theorem emit_seq (e : Event) : (emit e s).seq = s.seq := rfl
@[simp] theorem emit_curCmd (e : Event) : (emit e s).curCmd = s.curCmd := rfl
@[simp] theorem emit_spi (e : Event) : (emit e s).spi = s.spi := rfl
@[simp] theorem emit_trk (e : Event) : (emit e s).trk = s.trk := rfl
@[simp] theorem emit_fault (e : Event) : (emit e s).fault = s.fault := rfl
@[simp] theorem emit_trace (e : Event) : (emit e s).trace = s.trace ++ [e] := rfl
@[simp] theorem emit_env (e : Event) : (emit e s).env = s.env := rfl
@[simp] theorem emit_host (e : Event) : (emit e s).host = s.host := rfl

@[simp] theorem acceptWord_cfg (w : Word) : (acceptWord w s).cfg = s.cfg := rfl
@[simp] theorem acceptWord_seq (w : Word) : (acceptWord w s).seq = s.seq := rfl
@[simp] theorem acceptWord_curCmd (w : Word) : (acceptWord w s).curCmd = w := rfl
@[simp] theorem acceptWord_spi (w : Word) : (acceptWord w s).spi = s.spi := rfl
@[simp] theorem acceptWord_trk (w : Word) : (acceptWord w s).trk = s.trk := rfl
@[simp] theorem acceptWord_fault (w : Word) : (acceptWord w s).fault = s.fault := rfl
@[simp] theorem acceptWord_trace (w : Word) : (acceptWord w s).trace = s.trace := rfl
@[simp] theorem acceptWord_env (w : Word) : (acceptWord w s).env = s.env := rfl
@[simp] theorem acceptWord_host (w : Word) : (acceptWord w s).host = s.host := rfl

@[simp] theorem raiseFault_cfg (f : Fault) : (raiseFault f s).cfg = s.cfg := rfl
@[simp] theorem raiseFault_seq (f : Fault) : (raiseFault f s).seq = s.seq := rfl
@[simp] theorem raiseFault_curCmd (f : Fault) : (raiseFault f s).curCmd = s.curCmd := rfl
@[simp] theorem raiseFault_spi (f : Fault) : (raiseFault f s).spi = s.spi := rfl
@[simp] theorem raiseFault_trk (f : Fault) : (raiseFault f s).trk = s.trk := rfl
@[simp] theorem raiseFault_fault (f : Fault) : (raiseFault f s).fault = some f := rfl
@[simp] theorem raiseFault_trace (f : Fault) : (raiseFault f s).trace = s.trace := rfl
@[simp] theorem raiseFault_env (f : Fault) : (raiseFault f s).env = s.env := rfl
@[simp] theorem raiseFault_host (f : Fault) : (raiseFault f s).host = s.host := rfl

@[simp] theorem setSeq_cfg (v : SeqState) : (setSeq v s).cfg = s.cfg := rfl
@[simp] theorem setSeq_seq (v : SeqState) : (setSeq v s).seq = v := rfl
@[simp] theorem setSeq_curCmd (v : SeqState) : (setSeq v s).curCmd = s.curCmd := rfl
@[simp] theorem setSeq_spi (v : SeqState) : (setSeq v s).spi = s.spi := rfl
@[simp] theorem setSeq_trk (v : SeqState) : (setSeq v s).trk = s.trk := rfl
@[simp] theorem setSeq_fault (v : SeqState) : (setSeq v s).fault = s.fault := rfl
@[simp] theorem setSeq_trace (v : SeqState) : (setSeq v s).trace = s.trace := rfl
@[simp] theorem setSeq_env (v : SeqState) : (setSeq v s).env = s.env := rfl
@[simp] theorem setSeq_host (v : SeqState) : (setSeq v s).host = s.host := rfl

@[simp] theorem hold_cfg : (hold s).cfg = s.cfg := rfl
@[simp] theorem hold_seq : (hold s).seq = s.seq := rfl
@[simp] theorem hold_curCmd : (hold s).curCmd = s.curCmd := rfl
@[simp] theorem hold_spi : (hold s).spi = { s.spi with holdCnt := 0#16 } := rfl
@[simp] theorem hold_trk : (hold s).trk = s.trk := rfl
@[simp] theorem hold_fault : (hold s).fault = s.fault := rfl
@[simp] theorem hold_trace : (hold s).trace = s.trace ++ [.hold] := rfl
@[simp] theorem hold_env : (hold s).env = s.env := rfl
@[simp] theorem hold_host : (hold s).host = s.host := rfl

@[simp] theorem nopStart_cfg : (nopStart s).cfg = s.cfg := rfl
@[simp] theorem nopStart_seq : (nopStart s).seq = s.seq := rfl
@[simp] theorem nopStart_curCmd : (nopStart s).curCmd = encode .nop := rfl
@[simp] theorem nopStart_spi : (nopStart s).spi = s.spi := rfl
@[simp] theorem nopStart_trk : (nopStart s).trk = s.trk := rfl
@[simp] theorem nopStart_fault : (nopStart s).fault = s.fault := rfl
@[simp] theorem nopStart_trace : (nopStart s).trace = s.trace := rfl
@[simp] theorem nopStart_env : (nopStart s).env = s.env := rfl
@[simp] theorem nopStart_host : (nopStart s).host = s.host := rfl

@[simp] theorem startHold_cfg : (startHold s).cfg = s.cfg := rfl
@[simp] theorem startHold_seq : (startHold s).seq = s.seq := rfl
@[simp] theorem startHold_curCmd : (startHold s).curCmd = s.curCmd := rfl
@[simp] theorem startHold_spi : (startHold s).spi = { s.spi with holdCnt := BitVec.ofNat 16 s.cfg.settleCycles } := rfl
@[simp] theorem startHold_trk : (startHold s).trk = s.trk := rfl
@[simp] theorem startHold_fault : (startHold s).fault = s.fault := rfl
@[simp] theorem startHold_trace : (startHold s).trace = s.trace ++ [.hold] := rfl
@[simp] theorem startHold_env : (startHold s).env = s.env := rfl
@[simp] theorem startHold_host : (startHold s).host = s.host := rfl

@[simp] theorem setSpiRdy_cfg : (setSpiRdy s).cfg = s.cfg := rfl
@[simp] theorem setSpiRdy_seq : (setSpiRdy s).seq = s.seq := rfl
@[simp] theorem setSpiRdy_curCmd : (setSpiRdy s).curCmd = s.curCmd := rfl
@[simp] theorem setSpiRdy_spi : (setSpiRdy s).spi = { s.spi with spiRdy := true } := rfl
@[simp] theorem setSpiRdy_trk : (setSpiRdy s).trk = s.trk := rfl
@[simp] theorem setSpiRdy_fault : (setSpiRdy s).fault = s.fault := rfl
@[simp] theorem setSpiRdy_trace : (setSpiRdy s).trace = s.trace := rfl
@[simp] theorem setSpiRdy_env : (setSpiRdy s).env = s.env := rfl
@[simp] theorem setSpiRdy_host : (setSpiRdy s).host = s.host := rfl

@[simp] theorem setSession_cfg (v : Bool) : (setSession v s).cfg = s.cfg := rfl
@[simp] theorem setSession_seq (v : Bool) : (setSession v s).seq = s.seq := rfl
@[simp] theorem setSession_curCmd (v : Bool) : (setSession v s).curCmd = s.curCmd := rfl
@[simp] theorem setSession_spi (v : Bool) : (setSession v s).spi = { s.spi with session := v } := rfl
@[simp] theorem setSession_trk (v : Bool) : (setSession v s).trk = s.trk := rfl
@[simp] theorem setSession_fault (v : Bool) : (setSession v s).fault = s.fault := rfl
@[simp] theorem setSession_trace (v : Bool) : (setSession v s).trace = s.trace := rfl
@[simp] theorem setSession_env (v : Bool) : (setSession v s).env = s.env := rfl
@[simp] theorem setSession_host (v : Bool) : (setSession v s).host = s.host := rfl

@[simp] theorem commitRx_cfg : (commitRx s).cfg = s.cfg := rfl
@[simp] theorem commitRx_seq : (commitRx s).seq = s.seq := rfl
@[simp] theorem commitRx_curCmd : (commitRx s).curCmd = s.curCmd := rfl
@[simp] theorem commitRx_spi : (commitRx s).spi = { s.spi with rxData := s.spi.rxSr, rxValid := true } := rfl
@[simp] theorem commitRx_trk : (commitRx s).trk = s.trk := rfl
@[simp] theorem commitRx_fault : (commitRx s).fault = s.fault := rfl
@[simp] theorem commitRx_trace : (commitRx s).trace = s.trace := rfl
@[simp] theorem commitRx_env : (commitRx s).env = s.env := rfl
@[simp] theorem commitRx_host : (commitRx s).host = s.host := rfl

@[simp] theorem setPhase_cfg (p : Phase) : (setPhase p s).cfg = s.cfg := rfl
@[simp] theorem setPhase_seq (p : Phase) : (setPhase p s).seq = s.seq := rfl
@[simp] theorem setPhase_curCmd (p : Phase) : (setPhase p s).curCmd = s.curCmd := rfl
@[simp] theorem setPhase_spi (p : Phase) : (setPhase p s).spi = { s.spi with phase := p } := rfl
@[simp] theorem setPhase_trk (p : Phase) : (setPhase p s).trk = s.trk := rfl
@[simp] theorem setPhase_fault (p : Phase) : (setPhase p s).fault = s.fault := rfl
@[simp] theorem setPhase_trace (p : Phase) : (setPhase p s).trace = s.trace := rfl
@[simp] theorem setPhase_env (p : Phase) : (setPhase p s).env = s.env := rfl
@[simp] theorem setPhase_host (p : Phase) : (setPhase p s).host = s.host := rfl

@[simp] theorem setBitCnt_cfg (n : BitVec 3) : (setBitCnt n s).cfg = s.cfg := rfl
@[simp] theorem setBitCnt_seq (n : BitVec 3) : (setBitCnt n s).seq = s.seq := rfl
@[simp] theorem setBitCnt_curCmd (n : BitVec 3) : (setBitCnt n s).curCmd = s.curCmd := rfl
@[simp] theorem setBitCnt_spi (n : BitVec 3) : (setBitCnt n s).spi = { s.spi with bitCnt := n } := rfl
@[simp] theorem setBitCnt_trk (n : BitVec 3) : (setBitCnt n s).trk = s.trk := rfl
@[simp] theorem setBitCnt_fault (n : BitVec 3) : (setBitCnt n s).fault = s.fault := rfl
@[simp] theorem setBitCnt_trace (n : BitVec 3) : (setBitCnt n s).trace = s.trace := rfl
@[simp] theorem setBitCnt_env (n : BitVec 3) : (setBitCnt n s).env = s.env := rfl
@[simp] theorem setBitCnt_host (n : BitVec 3) : (setBitCnt n s).host = s.host := rfl

@[simp] theorem loadShift_cfg (out : Byte) : (loadShift out s).cfg = s.cfg := rfl
@[simp] theorem loadShift_seq (out : Byte) : (loadShift out s).seq = s.seq := rfl
@[simp] theorem loadShift_curCmd (out : Byte) : (loadShift out s).curCmd = s.curCmd := rfl
@[simp] theorem loadShift_spi (out : Byte) : (loadShift out s).spi = { s.spi with txSr := out, rxSr := 0#8 } := rfl
@[simp] theorem loadShift_trk (out : Byte) : (loadShift out s).trk = s.trk := rfl
@[simp] theorem loadShift_fault (out : Byte) : (loadShift out s).fault = s.fault := rfl
@[simp] theorem loadShift_trace (out : Byte) : (loadShift out s).trace = s.trace := rfl
@[simp] theorem loadShift_env (out : Byte) : (loadShift out s).env = s.env := rfl
@[simp] theorem loadShift_host (out : Byte) : (loadShift out s).host = s.host := rfl

@[simp] theorem shiftOut_cfg : (shiftOut s).cfg = s.cfg := rfl
@[simp] theorem shiftOut_seq : (shiftOut s).seq = s.seq := rfl
@[simp] theorem shiftOut_curCmd : (shiftOut s).curCmd = s.curCmd := rfl
@[simp] theorem shiftOut_spi : (shiftOut s).spi = { s.spi with txSr := shiftIn s.spi.txSr false } := rfl
@[simp] theorem shiftOut_trk : (shiftOut s).trk = s.trk := rfl
@[simp] theorem shiftOut_fault : (shiftOut s).fault = s.fault := rfl
@[simp] theorem shiftOut_trace : (shiftOut s).trace = s.trace := rfl
@[simp] theorem shiftOut_env : (shiftOut s).env = s.env := rfl
@[simp] theorem shiftOut_host : (shiftOut s).host = s.host := rfl

@[simp] theorem shiftRx_cfg (b : Level) : (shiftRx b s).cfg = s.cfg := rfl
@[simp] theorem shiftRx_seq (b : Level) : (shiftRx b s).seq = s.seq := rfl
@[simp] theorem shiftRx_curCmd (b : Level) : (shiftRx b s).curCmd = s.curCmd := rfl
@[simp] theorem shiftRx_spi (b : Level) : (shiftRx b s).spi = { s.spi with rxSr := shiftIn s.spi.rxSr b } := rfl
@[simp] theorem shiftRx_trk (b : Level) : (shiftRx b s).trk = s.trk := rfl
@[simp] theorem shiftRx_fault (b : Level) : (shiftRx b s).fault = s.fault := rfl
@[simp] theorem shiftRx_trace (b : Level) : (shiftRx b s).trace = s.trace := rfl
@[simp] theorem shiftRx_env (b : Level) : (shiftRx b s).env = s.env := rfl
@[simp] theorem shiftRx_host (b : Level) : (shiftRx b s).host = s.host := rfl

@[simp] theorem setTrkRun_cfg : (setTrkRun s).cfg = s.cfg := rfl
@[simp] theorem setTrkRun_seq : (setTrkRun s).seq = s.seq := rfl
@[simp] theorem setTrkRun_curCmd : (setTrkRun s).curCmd = s.curCmd := rfl
@[simp] theorem setTrkRun_spi : (setTrkRun s).spi = s.spi := rfl
@[simp] theorem setTrkRun_trk : (setTrkRun s).trk = { s.trk with trkRun := true } := rfl
@[simp] theorem setTrkRun_fault : (setTrkRun s).fault = s.fault := rfl
@[simp] theorem setTrkRun_trace : (setTrkRun s).trace = s.trace := rfl
@[simp] theorem setTrkRun_env : (setTrkRun s).env = s.env := rfl
@[simp] theorem setTrkRun_host : (setTrkRun s).host = s.host := rfl

@[simp] theorem setChanges_cfg (m : Byte) : (setChanges m s).cfg = s.cfg := rfl
@[simp] theorem setChanges_seq (m : Byte) : (setChanges m s).seq = s.seq := rfl
@[simp] theorem setChanges_curCmd (m : Byte) : (setChanges m s).curCmd = s.curCmd := rfl
@[simp] theorem setChanges_spi (m : Byte) : (setChanges m s).spi = s.spi := rfl
@[simp] theorem setChanges_trk (m : Byte) : (setChanges m s).trk = { s.trk with changes := m, chg := decide (m ≠ 0#8) } := rfl
@[simp] theorem setChanges_fault (m : Byte) : (setChanges m s).fault = s.fault := rfl
@[simp] theorem setChanges_trace (m : Byte) : (setChanges m s).trace = s.trace := rfl
@[simp] theorem setChanges_env (m : Byte) : (setChanges m s).env = s.env := rfl
@[simp] theorem setChanges_host (m : Byte) : (setChanges m s).host = s.host := rfl

@[simp] theorem setRendValid_cfg : (setRendValid s).cfg = s.cfg := rfl
@[simp] theorem setRendValid_seq : (setRendValid s).seq = s.seq := rfl
@[simp] theorem setRendValid_curCmd : (setRendValid s).curCmd = s.curCmd := rfl
@[simp] theorem setRendValid_spi : (setRendValid s).spi = s.spi := rfl
@[simp] theorem setRendValid_trk : (setRendValid s).trk = { s.trk with rendValid := true } := rfl
@[simp] theorem setRendValid_fault : (setRendValid s).fault = s.fault := rfl
@[simp] theorem setRendValid_trace : (setRendValid s).trace = s.trace := rfl
@[simp] theorem setRendValid_env : (setRendValid s).env = s.env := rfl
@[simp] theorem setRendValid_host : (setRendValid s).host = s.host := rfl

@[simp] theorem pinReadMiso_cfg : ((pinReadMiso s).2).cfg = s.cfg := rfl
@[simp] theorem pinReadMiso_seq : ((pinReadMiso s).2).seq = s.seq := rfl
@[simp] theorem pinReadMiso_curCmd : ((pinReadMiso s).2).curCmd = s.curCmd := rfl
@[simp] theorem pinReadMiso_spi : ((pinReadMiso s).2).spi = s.spi := rfl
@[simp] theorem pinReadMiso_trk : ((pinReadMiso s).2).trk = s.trk := rfl
@[simp] theorem pinReadMiso_fault : ((pinReadMiso s).2).fault = s.fault := rfl
@[simp] theorem pinReadMiso_trace : ((pinReadMiso s).2).trace = s.trace ++ [.sample .spiMiso (drawMiso s.env).1] := rfl
@[simp] theorem pinReadMiso_env : ((pinReadMiso s).2).env = (drawMiso s.env).2 := rfl
@[simp] theorem pinReadMiso_host : ((pinReadMiso s).2).host = s.host := rfl

@[simp] theorem sampleInputs_cfg : ((sampleInputs s).2).cfg = s.cfg := rfl
@[simp] theorem sampleInputs_seq : ((sampleInputs s).2).seq = s.seq := rfl
@[simp] theorem sampleInputs_curCmd : ((sampleInputs s).2).curCmd = s.curCmd := rfl
@[simp] theorem sampleInputs_spi : ((sampleInputs s).2).spi = s.spi := rfl
@[simp] theorem sampleInputs_trk : ((sampleInputs s).2).trk = s.trk := rfl
@[simp] theorem sampleInputs_fault : ((sampleInputs s).2).fault = s.fault := rfl
@[simp] theorem sampleInputs_trace : ((sampleInputs s).2).trace = s.trace ++ [.sampleAll (drawTrk s.env).1] := rfl
@[simp] theorem sampleInputs_env : ((sampleInputs s).2).env = (drawTrk s.env).2 := rfl
@[simp] theorem sampleInputs_host : ((sampleInputs s).2).host = s.host := rfl

@[simp] theorem takeSample_cfg : (takeSample s).cfg = s.cfg := rfl
@[simp] theorem takeSample_seq : (takeSample s).seq = s.seq := rfl
@[simp] theorem takeSample_curCmd : (takeSample s).curCmd = s.curCmd := rfl
@[simp] theorem takeSample_spi : (takeSample s).spi = s.spi := rfl
@[simp] theorem takeSample_trk : (takeSample s).trk = { s.trk with prev := s.trk.cur, cur := (drawTrk s.env).1 &&& chMask s.cfg } := rfl
@[simp] theorem takeSample_fault : (takeSample s).fault = s.fault := rfl
@[simp] theorem takeSample_trace : (takeSample s).trace = s.trace ++ [.sampleAll (drawTrk s.env).1] := rfl
@[simp] theorem takeSample_env : (takeSample s).env = (drawTrk s.env).2 := rfl
@[simp] theorem takeSample_host : (takeSample s).host = s.host := rfl

@[simp] theorem pushHistories_cfg : (pushHistories s).cfg = s.cfg := rfl
@[simp] theorem pushHistories_seq : (pushHistories s).seq = s.seq := rfl
@[simp] theorem pushHistories_curCmd : (pushHistories s).curCmd = s.curCmd := rfl
@[simp] theorem pushHistories_spi : (pushHistories s).spi = s.spi := rfl
@[simp] theorem pushHistories_fault : (pushHistories s).fault = s.fault := rfl
@[simp] theorem pushHistories_trace : (pushHistories s).trace = s.trace := rfl
@[simp] theorem pushHistories_env : (pushHistories s).env = s.env := rfl
@[simp] theorem pushHistories_host : (pushHistories s).host = s.host := rfl

@[simp] theorem copyRend_cfg : (copyRend s).cfg = s.cfg := rfl
@[simp] theorem copyRend_seq : (copyRend s).seq = s.seq := rfl
@[simp] theorem copyRend_curCmd : (copyRend s).curCmd = s.curCmd := rfl
@[simp] theorem copyRend_spi : (copyRend s).spi = s.spi := rfl
@[simp] theorem copyRend_fault : (copyRend s).fault = s.fault := rfl
@[simp] theorem copyRend_trace : (copyRend s).trace = s.trace := rfl
@[simp] theorem copyRend_env : (copyRend s).env = s.env := rfl
@[simp] theorem copyRend_host : (copyRend s).host = s.host := rfl

@[simp] theorem seedHistories_cfg : (seedHistories s).cfg = s.cfg := rfl
@[simp] theorem seedHistories_seq : (seedHistories s).seq = s.seq := rfl
@[simp] theorem seedHistories_curCmd : (seedHistories s).curCmd = s.curCmd := rfl
@[simp] theorem seedHistories_spi : (seedHistories s).spi = s.spi := rfl
@[simp] theorem seedHistories_fault : (seedHistories s).fault = s.fault := rfl
@[simp] theorem seedHistories_trace : (seedHistories s).trace = s.trace := rfl
@[simp] theorem seedHistories_env : (seedHistories s).env = s.env := rfl
@[simp] theorem seedHistories_host : (seedHistories s).host = s.host := rfl

@[simp] theorem setQueue_cfg (q : List HostAccess) : (setQueue q s).cfg = s.cfg := rfl
@[simp] theorem setQueue_seq (q : List HostAccess) : (setQueue q s).seq = s.seq := rfl
@[simp] theorem setQueue_curCmd (q : List HostAccess) : (setQueue q s).curCmd = s.curCmd := rfl
@[simp] theorem setQueue_spi (q : List HostAccess) : (setQueue q s).spi = s.spi := rfl
@[simp] theorem setQueue_trk (q : List HostAccess) : (setQueue q s).trk = s.trk := rfl
@[simp] theorem setQueue_fault (q : List HostAccess) : (setQueue q s).fault = s.fault := rfl
@[simp] theorem setQueue_trace (q : List HostAccess) : (setQueue q s).trace = s.trace := rfl
@[simp] theorem setQueue_env (q : List HostAccess) : (setQueue q s).env = s.env := rfl
@[simp] theorem setQueue_host (q : List HostAccess) : (setQueue q s).host = { s.host with queue := q } := rfl

@[simp] theorem logRead_cfg (a : Addr) (v : Word) : (logRead a v s).cfg = s.cfg := rfl
@[simp] theorem logRead_seq (a : Addr) (v : Word) : (logRead a v s).seq = s.seq := rfl
@[simp] theorem logRead_curCmd (a : Addr) (v : Word) : (logRead a v s).curCmd = s.curCmd := rfl
@[simp] theorem logRead_spi (a : Addr) (v : Word) : (logRead a v s).spi = s.spi := rfl
@[simp] theorem logRead_trk (a : Addr) (v : Word) : (logRead a v s).trk = s.trk := rfl
@[simp] theorem logRead_fault (a : Addr) (v : Word) : (logRead a v s).fault = s.fault := rfl
@[simp] theorem logRead_trace (a : Addr) (v : Word) : (logRead a v s).trace = s.trace := rfl
@[simp] theorem logRead_env (a : Addr) (v : Word) : (logRead a v s).env = s.env := rfl
@[simp] theorem logRead_host (a : Addr) (v : Word) : (logRead a v s).host = { s.host with readLog := s.host.readLog ++ [⟨a, v⟩] } := rfl

@[simp] theorem pinWrite_cfg (p : Pin) (v : Level) : (pinWrite p v s).cfg = s.cfg := by cases p <;> rfl
@[simp] theorem pinWrite_seq (p : Pin) (v : Level) : (pinWrite p v s).seq = s.seq := by cases p <;> rfl
@[simp] theorem pinWrite_curCmd (p : Pin) (v : Level) : (pinWrite p v s).curCmd = s.curCmd := by cases p <;> rfl
@[simp] theorem pinWrite_fault (p : Pin) (v : Level) : (pinWrite p v s).fault = s.fault := by cases p <;> rfl
@[simp] theorem pinWrite_env (p : Pin) (v : Level) : (pinWrite p v s).env = s.env := by cases p <;> rfl
@[simp] theorem pinWrite_host (p : Pin) (v : Level) : (pinWrite p v s).host = s.host := by cases p <;> rfl
@[simp] theorem pinWrite_trace (p : Pin) (v : Level) : (pinWrite p v s).trace = s.trace ++ [.drive p v] := by cases p <;> rfl

@[simp] theorem pinWrite_spiCs_spi (v : Level) : (pinWrite .spiCs v s).spi = { s.spi with csLat := v } := rfl
@[simp] theorem pinWrite_spiCs_trk (v : Level) : (pinWrite .spiCs v s).trk = s.trk := rfl
@[simp] theorem pinWrite_spiSck_spi (v : Level) : (pinWrite .spiSck v s).spi = { s.spi with sckLat := v } := rfl
@[simp] theorem pinWrite_spiSck_trk (v : Level) : (pinWrite .spiSck v s).trk = s.trk := rfl
@[simp] theorem pinWrite_spiMosi_spi (v : Level) : (pinWrite .spiMosi v s).spi = { s.spi with mosiLat := v } := rfl
@[simp] theorem pinWrite_spiMosi_trk (v : Level) : (pinWrite .spiMosi v s).trk = s.trk := rfl
@[simp] theorem pinWrite_trkOut0_spi (v : Level) : (pinWrite .trkOut0 v s).spi = s.spi := rfl
@[simp] theorem pinWrite_trkOut0_trk (v : Level) : (pinWrite .trkOut0 v s).trk = { s.trk with out0Lat := v } := rfl
@[simp] theorem pinWrite_trkOut1_spi (v : Level) : (pinWrite .trkOut1 v s).spi = s.spi := rfl
@[simp] theorem pinWrite_trkOut1_trk (v : Level) : (pinWrite .trkOut1 v s).trk = { s.trk with out1Lat := v } := rfl

@[simp] theorem pinDir_cfg (p : Pin) (v : Dir) : (pinDir p v s).cfg = s.cfg := by cases p <;> rfl
@[simp] theorem pinDir_seq (p : Pin) (v : Dir) : (pinDir p v s).seq = s.seq := by cases p <;> rfl
@[simp] theorem pinDir_curCmd (p : Pin) (v : Dir) : (pinDir p v s).curCmd = s.curCmd := by cases p <;> rfl
@[simp] theorem pinDir_fault (p : Pin) (v : Dir) : (pinDir p v s).fault = s.fault := by cases p <;> rfl
@[simp] theorem pinDir_env (p : Pin) (v : Dir) : (pinDir p v s).env = s.env := by cases p <;> rfl
@[simp] theorem pinDir_host (p : Pin) (v : Dir) : (pinDir p v s).host = s.host := by cases p <;> rfl
@[simp] theorem pinDir_trace (p : Pin) (v : Dir) : (pinDir p v s).trace = s.trace ++ [.dir p v] := by cases p <;> rfl

@[simp] theorem pinDir_spiCs_spi (v : Dir) : (pinDir .spiCs v s).spi = { s.spi with csDir := v } := rfl
@[simp] theorem pinDir_spiCs_trk (v : Dir) : (pinDir .spiCs v s).trk = s.trk := rfl
@[simp] theorem pinDir_spiSck_spi (v : Dir) : (pinDir .spiSck v s).spi = { s.spi with sckDir := v } := rfl
@[simp] theorem pinDir_spiSck_trk (v : Dir) : (pinDir .spiSck v s).trk = s.trk := rfl
@[simp] theorem pinDir_spiMosi_spi (v : Dir) : (pinDir .spiMosi v s).spi = { s.spi with mosiDir := v } := rfl
@[simp] theorem pinDir_spiMosi_trk (v : Dir) : (pinDir .spiMosi v s).trk = s.trk := rfl
@[simp] theorem pinDir_trkOut0_spi (v : Dir) : (pinDir .trkOut0 v s).spi = s.spi := rfl
@[simp] theorem pinDir_trkOut0_trk (v : Dir) : (pinDir .trkOut0 v s).trk = { s.trk with out0Dir := v } := rfl
@[simp] theorem pinDir_trkOut1_spi (v : Dir) : (pinDir .trkOut1 v s).spi = s.spi := rfl
@[simp] theorem pinDir_trkOut1_trk (v : Dir) : (pinDir .trkOut1 v s).trk = { s.trk with out1Dir := v } := rfl
@[simp] theorem pinDir_spiMiso_spi (v : Dir) : (pinDir .spiMiso v s).spi = { s.spi with misoDir := v } := rfl
@[simp] theorem pinDir_spiMiso_trk (v : Dir) : (pinDir .spiMiso v s).trk = s.trk := rfl
@[simp] theorem pinDir_trkIn_spi (c : Fin 8) (v : Dir) : (pinDir (.trkIn c) v s).spi = s.spi := rfl
@[simp] theorem pinDir_trkIn_trk (c : Fin 8) (v : Dir) :
    (pinDir (.trkIn c) v s).trk = { s.trk with inDir := s.trk.inDir.set c v } := rfl

@[simp] theorem resetBlock_cfg : (resetBlock s).cfg = s.cfg := rfl
@[simp] theorem resetBlock_seq : (resetBlock s).seq = .idle := rfl
@[simp] theorem resetBlock_curCmd : (resetBlock s).curCmd = 0#16 := rfl
@[simp] theorem resetBlock_spi : (resetBlock s).spi = SpiUnit.reset := rfl
@[simp] theorem resetBlock_trk : (resetBlock s).trk = TrkUnit.reset := rfl
@[simp] theorem resetBlock_fault : (resetBlock s).fault = none := rfl
@[simp] theorem resetBlock_trace : (resetBlock s).trace = [] := rfl
@[simp] theorem resetBlock_env : (resetBlock s).env = s.env := rfl
@[simp] theorem resetBlock_host : (resetBlock s).host = s.host := rfl

/-- The draw of a sample is the environment's next one. -/
@[simp] theorem sampleInputs_value : (sampleInputs s).1 = (drawTrk s.env).1 := rfl

/-- The draw of a read of data-in is the environment's next one. -/
@[simp] theorem pinReadMiso_value : (pinReadMiso s).1 = (drawMiso s.env).1 := rfl

end Sys2Proof.Machine
end

