-- ==== Sys2Proof/Laws/Ops.lean ====
section
/-! SUPPORT. What each shared operation can do, said once: fault entry, sequencing, one host access, the register
files, the channel masks, and the bit period. -/

namespace Sys2Proof.Machine

/-- A checked effect answers a next state: the effect's when no check failed, else the state with the fault
recorded. -/
theorem faultOr_next_iff {f : Option Fault} {e : State → State} {s t : State} :
    faultOr f e s = .next t ↔ (f = none ∧ t = e s) ∨ ∃ g, f = some g ∧ t = raiseFault g s := by
  cases f <;> simp [faultOr, eq_comm]

@[simp] theorem faultOr_none (e : State → State) (s : State) : faultOr none e s = .next (e s) := rfl

@[simp] theorem faultOr_some (g : Fault) (e : State → State) (s : State) :
    faultOr (some g) e s = .next (raiseFault g s) := rfl

/-- A sequence answers a next state exactly when both its parts do. -/
theorem andThen_next_iff {o : Answer} {f : State → Answer} {t : State} :
    andThen o f = .next t ↔ ∃ u, o = .next u ∧ f u = .next t := by
  cases o <;> simp [andThen]

@[simp] theorem andThen_next (s : State) (f : State → Answer) : andThen (.next s) f = f s := rfl

@[simp] theorem firstFault_nil : firstFault [] = none := rfl

@[simp] theorem firstFault_cons (b : Bool) (f : Fault) (rest : List (Bool × Fault)) :
    firstFault ((b, f) :: rest) = if b then some f else firstFault rest := rfl

/-- Every meaning is a checked effect: it answers the hardware's state, or the fault's. -/
theorem exec_cases {i : Instr} {s t : State} (h : exec i s = .next t) :
    t = hardwareExec i s ∨ ∃ f, t = raiseFault f s := by
  cases i
  case nop =>
    cases h
    exact .inl rfl
  all_goals
    obtain ⟨-, rfl⟩ | ⟨g, -, rfl⟩ := faultOr_next_iff.1 h
    · exact .inl rfl
    · exact .inr ⟨g, rfl⟩

/-- A command whose contract checks pass runs as the hardware runs it. -/
theorem exec_of_legal {i : Instr} {s : State} (h : legalIn i s = true) : exec i s = .next (hardwareExec i s) := by
  cases i
  case nop => rfl
  all_goals
    refine faultOr_next_iff.2 (.inl ⟨?_, rfl⟩)
    simp_all [legalIn, spiInitFault, spiBeginFault, spiEndFault, spiXferFault, trkInitFault, notRunningFault]

/-- A command one of whose contract checks fails records a fault with its own word and changes nothing else. -/
theorem exec_of_illegal {i : Instr} {s : State} (h : legalIn i s = false) :
    ∃ f, exec i s = .next (raiseFault f s) ∧ faultWord f = encode i := by
  cases i
  case nop => cases h
  case spiBegin | spiEnd | spiXfer =>
    cases hr : s.spi.spiRdy
    · exact ⟨.spiNotInitialised _, faultOr_next_iff.2 (.inr ⟨_, by simp [spiBeginFault, spiEndFault, spiXferFault, hr]; rfl, rfl⟩), rfl⟩
    · exact ⟨_, faultOr_next_iff.2 (.inr ⟨_, by simp_all [legalIn, spiBeginFault, spiEndFault, spiXferFault]; rfl, rfl⟩), rfl⟩
  all_goals
    exact ⟨_, faultOr_next_iff.2 (.inr ⟨_, by
      simp_all [legalIn, spiInitFault, trkInitFault, notRunningFault]; rfl, rfl⟩), rfl⟩

/-- `ceil(P_T_SETTLE × f_CLK)` is the least number of cycles that lasts as long as the duration (R7). -/
theorem settleCyclesFor_le_iff (t f : PosRatio) (n : Nat) :
    Config.settleCyclesFor t f ≤ n ↔ t.num * f.num ≤ n * (t.den * f.den) := by
  have hd : 0 < t.den * f.den := Nat.mul_pos (Nat.succ_pos _) (Nat.succ_pos _)
  rw [Config.settleCyclesFor, ← Nat.lt_succ_iff, Nat.div_lt_iff_lt_mul hd, Nat.succ_mul]
  omega

/-- A positive duration takes at least one cycle at any frequency (R7). -/
theorem settleCyclesFor_pos (t f : PosRatio) : 0 < Config.settleCyclesFor t f := by
  have h : 0 < t.num * f.num := Nat.mul_pos (Nat.succ_pos _) (Nat.succ_pos _)
  rw [← Nat.not_le, settleCyclesFor_le_iff]
  omega

/-- What one step can do when it answers a next state: a reset, or, with no fault recorded, a cycle of the
sequencer with or without a completed access, or the issue of a CMD write. -/
theorem hostStep_cases {run : Instr → State → Answer} {s t : State} (h : hostStep run s = .next t) :
    s.cfg.wf = true ∧
      ((∃ rest, s.host.queue = .reset :: rest ∧ t = setQueue rest (resetBlock s)) ∨
       (s.fault = none ∧
         ((s.host.queue = [] ∧ t = advance s) ∨
          (∃ a rest, s.host.queue = .read a :: rest ∧ t = advance (logRead a (readReg a s) (setQueue rest s))) ∨
          (∃ a v rest, s.host.queue = .write a v :: rest ∧ a ≠ 0#5 ∧ t = advance (setQueue rest s)) ∨
          (∃ v rest, s.host.queue = .write 0#5 v :: rest ∧ s.seq = .run ∧ t = advance s) ∨
          (∃ v rest, s.host.queue = .write 0#5 v :: rest ∧ s.seq = .idle ∧
            issueWord run v (setQueue rest s) = .next t)))) := by
  unfold hostStep at h
  split at h
  case isFalse => cases h
  case isTrue hwf =>
    refine ⟨hwf, ?_⟩
    rcases hq : s.host.queue with _ | ⟨⟨a, v⟩ | a | _, rest⟩ <;> rcases hf : s.fault with _ | f <;>
      simp only [hq, hf] at h
    · cases h
      exact .inr ⟨rfl, .inl ⟨rfl, rfl⟩⟩
    · cases h
    · refine .inr ⟨rfl, ?_⟩
      by_cases ha : a = 0#5
      · subst ha
        cases hs : s.seq <;> simp [hostAccess, busReady, busy, hs] at h
        · exact .inr (.inr (.inr (.inr ⟨v, rest, rfl, rfl, h⟩)))
        · exact .inr (.inr (.inr (.inl ⟨v, rest, rfl, rfl, h.symm⟩)))
      · simp [hostAccess, busReady, ha] at h
        exact .inr (.inr (.inl ⟨a, v, rest, rfl, ha, h.symm⟩))
    · cases h
    · cases h
      exact .inr ⟨rfl, .inr (.inl ⟨a, rest, rfl, rfl⟩)⟩
    · cases h
    · cases h
      exact .inl ⟨rest, rfl, rfl⟩
    · cases h
      exact .inl ⟨rest, rfl, rfl⟩

/-- What the issue of a word can do. -/
theorem issueWord_cases {run : Instr → State → Answer} {w : Word} {s t : State} (h : issueWord run w s = .next t) :
    (∃ i, decode w = .command i ∧ run i s = .next t) ∨
      (∃ why, decode w = .illegal why ∧ t = raiseFault (.illegalCommand w) s) := by
  unfold issueWord at h
  split at h
  case h_1 i hi => exact .inl ⟨i, hi, h⟩
  case h_2 why hw =>
    cases h
    exact .inr ⟨why, hw, rfl⟩

/-- A register of an updated file: `f` of the old one where the channel exists, else the old one. -/
theorem updateBank_get (cfg : Cfg) (f : Fin 8 → Chan → Word → Word) (bank : Vector Word 8) (c : Fin 8) :
    (updateBank cfg f bank)[c] = match cfg.channels[c.val]? with
      | some ch => f c ch bank[c]
      | none => bank[c] :=
  Vector.getElem_ofFn c.isLt

/-- Bit `c` of a policy mask: channel `c` exists and has the policy. -/
theorem policyMask_bit (p : EdgePolicy) (chs : List Chan) (c : Nat) (hc : c < 8) :
    (policyMask p chs).getLsbD c = decide (chs[c]?.map Chan.policy = some p) := by
  induction chs generalizing c with
  | nil => simp [policyMask]
  | cons ch rest ih =>
    rw [policyMask, BitVec.getLsbD_or, BitVec.getLsbD_shiftLeft]
    cases c with
    | zero => by_cases h : ch.policy = p <;> simp [h]
    | succ n =>
      have hn : n < 8 := by omega
      have h1 : (if ch.policy = p then 1#8 else 0#8).getLsbD (n + 1) = false := by
        split <;> simp [BitVec.getLsbD_one]
      rw [h1]
      simp [ih n hn, hc]

/-- Bit `c` of `CH_MASK`: channel `c` exists (R33). -/
theorem chMask_bit (cfg : Cfg) (c : Nat) (hc : c < 8) : (chMask cfg).getLsbD c = decide (c < cfg.nch) := by
  rw [chMask, anyMask, fallMask, BitVec.getLsbD_or, policyMask_bit _ _ _ hc, policyMask_bit _ _ _ hc, Cfg.nch]
  by_cases h : c < cfg.channels.length
  · rw [List.getElem?_eq_getElem h]
    cases hp : (cfg.channels[c]).policy <;> simp [hp, h]
  · simp [h]

/-- The bits of `ones(W)`. -/
theorem onesWord_bit (width n : Nat) : (onesWord width).getLsbD n = decide (n < 16 ∧ n < width) := by
  simp [onesWord, BitVec.getLsbD_ofNat, Nat.testBit_two_pow_sub_one]

/-- Bit 0 of a pushed history is the new level; the other bits move up by one (R99). -/
theorem push_bit (h : Word) (l : Level) (width n : Nat) :
    (push h l width).getLsbD n =
      (decide (n < 16 ∧ n < width) && if n = 0 then l else h.getLsbD (n - 1)) := by
  rw [push, BitVec.getLsbD_and, onesWord_bit, BitVec.getLsbD_or, BitVec.getLsbD_shiftLeft, levelWord]
  by_cases hn : n < 16
  · cases n with
    | zero => cases l <;> simp
    | succ m => cases l <;> simp [hn, Bool.and_comm]
  · simp [hn]

/-- One bit period of a transfer as one update: the data-out bit is `TX_SR[7]`, the sample is the peer's next
level, and seven events are appended (R86). -/
theorem bitPeriod_eq (n : BitVec 3) (s : State) :
    bitPeriod n s = { s with
      spi := { s.spi with
        bitCnt := n, phase := .low, holdCnt := 0#16, sckLat := false, mosiLat := s.spi.txSr.getLsbD 7
        rxSr := shiftIn s.spi.rxSr (drawMiso s.env).1, txSr := shiftIn s.spi.txSr false }
      env := (drawMiso s.env).2
      trace := s.trace ++ [.drive .spiMosi (s.spi.txSr.getLsbD 7), .hold, .drive .spiSck true, .hold,
        .sample .spiMiso (drawMiso s.env).1, .drive .spiSck false, .hold] } := by
  simp [bitPeriod, runPhase, phaseAction, shiftOut, shiftRx, pinWrite, pinReadMiso, hold, emit, setLat, setPhase,
    setBitCnt, txBit, shiftIn]

/-- The bits of a byte after a bit is shifted in (R52). -/
theorem shiftIn_bit (v : Byte) (b : Level) (n : Nat) :
    (shiftIn v b).getLsbD n = (decide (n < 8) && if n = 0 then b else v.getLsbD (n - 1)) := by
  rw [shiftIn, BitVec.getLsbD_or, BitVec.getLsbD_shiftLeft]
  by_cases hn : n < 8
  · cases n with
    | zero => cases b <;> simp
    | succ m => cases b <;> simp [hn]
  · have h0 : n ≠ 0 := by omega
    cases b <;> simp [hn, h0]

/-- The bits of a byte after a bit is shifted in, as simp writes them. -/
@[simp] theorem shiftIn_getElem (v : Byte) (b : Level) (n : Nat) (h : n < 8) :
    (shiftIn v b)[n] = if n = 0 then b else v.getLsbD (n - 1) := by
  rw [← BitVec.getLsbD_eq_getElem h, shiftIn_bit]
  simp [h]

end Sys2Proof.Machine
end

