-- ==== Sys2Proof/Laws/PerInstr.lean ====
section
/-! SUPPORT. The laws stated instruction by instruction. Family `Fields`: the three fields of a command's word
(30_encoding.md R67 to R70). -/

namespace Sys2Proof.Laws.Fields

/-- The word of a command has its opcode in `OP`, zero in `RSV` and its operand in `IMM8` (R67). -/
def Statement (i : Instr) : Prop :=
  opField (encode i) = opcodeOf i ∧ rsvField (encode i) = 0#4 ∧ immField (encode i) = immOf i

theorem nop : Statement .nop := by unfold Statement; decide
theorem spiInit : Statement .spiInit := by unfold Statement; decide
theorem spiBegin : Statement .spiBegin := by unfold Statement; decide
theorem spiEnd : Statement .spiEnd := by unfold Statement; decide

theorem spiXfer (out : Byte) : Statement (.spiXfer out) := by
  unfold Statement
  revert out
  decide

theorem trkInit : Statement .trkInit := by unfold Statement; decide
theorem trkSample : Statement .trkSample := by unfold Statement; decide
theorem trkDetect : Statement .trkDetect := by unfold Statement; decide
theorem trkApply : Statement .trkApply := by unfold Statement; decide
theorem trkRender : Statement .trkRender := by unfold Statement; decide
theorem trkPoll : Statement .trkPoll := by unfold Statement; decide

end Sys2Proof.Laws.Fields
end

