-- ==== Sys2Proof/Laws/Sequencer.lean ====
section
/-! SUPPORT. What one cycle of the sequencer can do, said once (41_spi_master.md R94). -/

namespace Sys2Proof.Machine

/-- `t` differs from `s` at most in the sequencer, the SPI unit and the environment, and its trace extends that
of `s`. -/
def SpiOnly (s t : State) : Prop :=
  ∃ q u e es, t = { s with seq := q, spi := u, env := e, trace := s.trace ++ es }

theorem SpiOnly.refl (s : State) : SpiOnly s s := ⟨s.seq, s.spi, s.env, [], by simp⟩

theorem SpiOnly.trans {s t u : State} (h₁ : SpiOnly s t) (h₂ : SpiOnly t u) : SpiOnly s u := by
  obtain ⟨q₁, u₁, e₁, es₁, rfl⟩ := h₁
  obtain ⟨q₂, u₂, e₂, es₂, rfl⟩ := h₂
  exact ⟨q₂, u₂, e₂, es₁ ++ es₂, by simp⟩

/-- A state with no event appended and only the SPI unit and `SEQ` replaced. -/
theorem SpiOnly.of_units (s : State) (q : SeqState) (u : SpiUnit) : SpiOnly s { s with seq := q, spi := u } :=
  ⟨q, u, s.env, [], by simp⟩

theorem spiOnly_toIdle (s : State) : SpiOnly s (toIdle s) := .of_units s .idle s.spi
theorem spiOnly_setSession (v : Bool) (s : State) : SpiOnly s (setSession v s) := .of_units s s.seq _
theorem spiOnly_setPhase (p : Phase) (s : State) : SpiOnly s (setPhase p s) := .of_units s s.seq _
theorem spiOnly_setBitCnt (n : BitVec 3) (s : State) : SpiOnly s (setBitCnt n s) := .of_units s s.seq _
theorem spiOnly_shiftOut (s : State) : SpiOnly s (shiftOut s) := .of_units s s.seq _
theorem spiOnly_commitRx (s : State) : SpiOnly s (commitRx s) := .of_units s s.seq _
theorem spiOnly_startHold (s : State) : SpiOnly s (startHold s) := ⟨s.seq, _, s.env, [.hold], rfl⟩

/-- The pin action of a phase touches the SPI unit, the environment and the trace only. -/
theorem spiOnly_phaseAction (p : Phase) (s : State) : SpiOnly s (phaseAction p s) := by
  cases p
  · exact ⟨s.seq, _, s.env, [.drive .spiMosi (txBit s)], rfl⟩
  · exact ⟨s.seq, _, s.env, [.drive .spiSck true], rfl⟩
  · exact ⟨s.seq, _, (drawMiso s.env).2, [.sample .spiMiso (drawMiso s.env).1, .drive .spiSck false],
      by simp [phaseAction, pinReadMiso, shiftRx, pinWrite, emit, setLat]; rfl⟩

/-- A cycle of a hold either counts or does what follows the hold. -/
theorem spiOnly_countHold {done : State → State} (hd : ∀ s, SpiOnly s (done s)) (s : State) :
    SpiOnly s (countHold done s) := by
  unfold countHold
  split
  · exact (SpiOnly.of_units s s.seq _).trans (hd _)
  · exact .of_units s s.seq _

/-- The end of a phase's hold. -/
theorem spiOnly_phaseDone (s : State) : SpiOnly s (phaseDone s) := by
  unfold phaseDone
  split
  · exact spiOnly_setPhase _ _
  · exact spiOnly_setPhase _ _
  · simp only
    split
    · exact (spiOnly_shiftOut s).trans ((spiOnly_commitRx _).trans (spiOnly_toIdle _))
    · exact (spiOnly_shiftOut s).trans ((spiOnly_setBitCnt _ _).trans (spiOnly_setPhase _ _))

/-- One cycle of a running command touches the sequencer, the SPI unit, the environment and the trace only. -/
theorem spiOnly_runCycle (s : State) : SpiOnly s (runCycle s) := by
  unfold runCycle
  split <;> first
    | exact spiOnly_toIdle s
    | exact spiOnly_countHold (fun s => (spiOnly_setSession _ s).trans (spiOnly_toIdle _)) s
    | skip
  unfold xferCycle
  split
  · exact (spiOnly_phaseAction _ s).trans (spiOnly_startHold _)
  · exact spiOnly_countHold spiOnly_phaseDone s

/-- One cycle of the sequencer touches the sequencer, the SPI unit, the environment and the trace only. -/
theorem spiOnly_advance (s : State) : SpiOnly s (advance s) := by
  unfold advance
  split
  · exact spiOnly_runCycle s
  · exact .refl s

@[simp] theorem advance_cfg (s : State) : (advance s).cfg = s.cfg := by
  obtain ⟨q, u, e, es, h⟩ := spiOnly_advance s
  rw [h]

@[simp] theorem advance_curCmd (s : State) : (advance s).curCmd = s.curCmd := by
  obtain ⟨q, u, e, es, h⟩ := spiOnly_advance s
  rw [h]

@[simp] theorem advance_trk (s : State) : (advance s).trk = s.trk := by
  obtain ⟨q, u, e, es, h⟩ := spiOnly_advance s
  rw [h]

@[simp] theorem advance_fault (s : State) : (advance s).fault = s.fault := by
  obtain ⟨q, u, e, es, h⟩ := spiOnly_advance s
  rw [h]

@[simp] theorem advance_host (s : State) : (advance s).host = s.host := by
  obtain ⟨q, u, e, es, h⟩ := spiOnly_advance s
  rw [h]

/-- The trace of a cycle extends the one before it. -/
theorem advance_trace_prefix (s : State) : s.trace <+: (advance s).trace := by
  obtain ⟨q, u, e, es, h⟩ := spiOnly_advance s
  rw [h]
  exact List.prefix_append _ _

/-- The host's side is no operand of a phase's pin action. -/
theorem phaseAction_withHost (p : Phase) (s : State) (h : HostPort) :
    phaseAction p { s with host := h } = { phaseAction p s with host := h } := by
  cases p <;> rfl

/-- The host's side is no operand of the end of a phase. -/
theorem phaseDone_withHost (s : State) (h : HostPort) :
    phaseDone { s with host := h } = { phaseDone s with host := h } := by
  rcases s with ⟨cfg, seq, w, ⟨rdy, ses, rv, rd, tx, rx, n, p, hc, cs, sck, mosi, d1, d2, d3, d4⟩, trk, f, tr, env, ho⟩
  cases p
  · rfl
  · rfl
  · by_cases hn : n = 0#3 <;> simp [phaseDone, shiftOut, hn, toIdle, setSeq, commitRx, setPhase, setBitCnt]

/-- The host's side is no operand of a cycle of a hold. -/
theorem countHold_withHost {done : State → State} (hd : ∀ s h, done { s with host := h } = { done s with host := h })
    (s : State) (h : HostPort) : countHold done { s with host := h } = { countHold done s with host := h } := by
  unfold countHold
  split
  · exact hd { s with spi := { s.spi with holdCnt := 0#16 } } h
  · rfl

/-- The host's side is no operand of a cycle of a running command. -/
theorem runCycle_withHost (s : State) (h : HostPort) :
    runCycle { s with host := h } = { runCycle s with host := h } := by
  unfold runCycle
  cases hd : decode s.curCmd with
  | illegal why => rfl
  | command i =>
    cases i
    case spiBegin => exact countHold_withHost (fun _ _ => rfl) s h
    case spiEnd => exact countHold_withHost (fun _ _ => rfl) s h
    case spiXfer out =>
      show xferCycle { s with host := h } = { xferCycle s with host := h }
      unfold xferCycle
      split
      · simp [phaseAction_withHost, startHold, emit]
      · exact countHold_withHost phaseDone_withHost s h
    all_goals rfl

/-- The host's side is no operand of a cycle of the sequencer: an access that completes in it changes the host's
side and nothing of the cycle (R49, R54). -/
theorem advance_withHost (s : State) (h : HostPort) : advance { s with host := h } = { advance s with host := h } := by
  obtain ⟨cfg, seq, w, spi, trk, f, tr, env, ho⟩ := s
  cases seq
  · rfl
  · exact runCycle_withHost _ h
end Sys2Proof.Machine
end

