-- ==== Sys2Proof/Tests/Slice0.lean ====
section
/-! SUPPORT. Tests and witnesses. A test's expected values come from spec/95_test_vectors.md or from the rule named in
its docstring; a witness shows concrete values that meet all the hypotheses of one obligation. -/

namespace Sys2Proof.Tests

open Sys2Proof.Machine

/-! Helpers: small states, and the check of one step's next state. -/

/-- `f` holds of the next state of `o`. -/
def holds (o : Answer) (f : State → Bool) : Bool :=
  match o with
  | .next t => f t
  | .fault _ => false
  | .refused _ => false

/-- `o` stops with the fault `f`. -/
def faultsWith (o : Answer) (f : Fault) : Bool :=
  match o with
  | .next _ => false
  | .fault g => g == f
  | .refused _ => false

/-- `o` is the refusal `r`. -/
def refusesWith (o : Answer) (r : Refusal) : Bool :=
  match o with
  | .next _ => false
  | .fault _ => false
  | .refused q => q == r

/-- The default configuration with another settle count, so that a running command is short. -/
def quick (cycles : Nat) : Cfg := { Config.default with settleCycles := cycles }

/-- Reset with the configuration `cfg`, the peer's levels `bs`, the samples `vs` and the accesses `q`. -/
def start (cfg : Cfg) (bs : List Level) (vs : List Byte) (q : List HostAccess) : State :=
  State.resetWith cfg ⟨bs, vs, 0, 0⟩ ⟨q, []⟩

/-- A reset state with the samples `vs` listed. -/
def withSamples (vs : List Byte) : State := start Config.default [] vs []

/-- After `SPI_INIT`. -/
def ready (cfg : Cfg) (bs : List Level) (q : List HostAccess) : State := spiInitEffect (start cfg bs [] q)

/-- Inside a session. -/
def inSession (cfg : Cfg) (bs : List Level) (q : List HostAccess) : State := spiBeginEffect (ready cfg bs q)

/-- After `TRK_INIT` on the first of the samples. -/
def running (cfg : Cfg) (vs : List Byte) : State := trkInitEffect (start cfg [] vs [])

/-- In the middle of a transfer, its first cycle just accepted. -/
def transferring (q : List HostAccess) : State := spiXferStart 0xA5#8 (inSession (quick 1) [] q)

/-- A configuration at the upper ends of its ranges. -/
def widest : Cfg where
  csActive := true
  tSettle := ⟨0, 0⟩
  settleCycles := 65535
  channels := [⟨.fall, 16⟩, ⟨.fall, 1⟩, ⟨.fall, 2⟩, ⟨.fall, 3⟩, ⟨.fall, 4⟩, ⟨.fall, 5⟩, ⟨.fall, 6⟩, ⟨.any, 16⟩]
  mirrorEn := true
  mirrorSrc0 := 7
  mirrorSrc1 := 0
  syncStages := 3

/-! Decoding: one word per row of the opcode map, written out field by field (R67, R71), and the illegal words of
95_test_vectors.md section 2.1. -/

theorem test_decode_nop : decode 0b0000000000000000#16 = .command .nop := by decide
theorem test_decode_spi_init : decode 0b0000000000000001#16 = .command .spiInit := by decide
theorem test_decode_spi_begin : decode 0b0000000000000010#16 = .command .spiBegin := by decide
theorem test_decode_spi_end : decode 0b0000000000000011#16 = .command .spiEnd := by decide
theorem test_decode_spi_xfer_a5 : decode 0b1010010100000100#16 = .command (.spiXfer 0xA5#8) := by decide
theorem test_decode_spi_xfer_ff : decode 0b1111111100000100#16 = .command (.spiXfer 0xFF#8) := by decide
theorem test_decode_trk_init : decode 0b0000000000000101#16 = .command .trkInit := by decide
theorem test_decode_trk_sample : decode 0b0000000000000110#16 = .command .trkSample := by decide
theorem test_decode_trk_detect : decode 0b0000000000000111#16 = .command .trkDetect := by decide
theorem test_decode_trk_apply : decode 0b0000000000001000#16 = .command .trkApply := by decide
theorem test_decode_trk_render : decode 0b0000000000001001#16 = .command .trkRender := by decide
theorem test_decode_trk_poll : decode 0b0000000000001010#16 = .command .trkPoll := by decide

theorem test_decode_illegal_opcodes :
    decode 0x000B#16 = .illegal .reservedOpcode ∧ decode 0x000F#16 = .illegal .reservedOpcode := by decide

theorem test_decode_illegal_reserved_bits : decode 0x0010#16 = .illegal .reservedBits ∧
    decode 0x0014#16 = .illegal .reservedBits ∧ decode 0x00F4#16 = .illegal .reservedBits ∧
    decode 0xFFFF#16 = .illegal .reservedBits := by decide

theorem test_decode_illegal_immediates : decode 0x0101#16 = .illegal .immediate ∧
    decode 0x8000#16 = .illegal .immediate ∧ decode 0x050A#16 = .illegal .immediate := by decide

/-! Well-formedness: the default configuration passes, and each clause of R8 refuses an ill-formed one. -/

theorem test_wf_default : Config.default.wf = true ∧ widest.wf = true := by decide

theorem test_wf_refuses_no_channel : ({ Config.default with channels := [] } : Cfg).wf = false := by decide

theorem test_wf_refuses_nine_channels :
    ({ Config.default with channels := ⟨.any, 1⟩ :: List.replicate 8 ⟨.fall, 1⟩ } : Cfg).wf = false := by decide

theorem test_wf_refuses_width_zero :
    ({ Config.default with channels := [⟨.any, 0⟩, ⟨.fall, 2⟩, ⟨.fall, 2⟩] } : Cfg).wf = false := by decide

theorem test_wf_refuses_width_seventeen :
    ({ Config.default with channels := [⟨.any, 17⟩, ⟨.fall, 2⟩, ⟨.fall, 2⟩] } : Cfg).wf = false := by decide

theorem test_wf_refuses_two_any_channels :
    ({ Config.default with channels := [⟨.any, 2⟩, ⟨.any, 2⟩, ⟨.fall, 2⟩] } : Cfg).wf = false := by decide

theorem test_wf_refuses_no_any_channel :
    ({ Config.default with channels := [⟨.fall, 2⟩, ⟨.fall, 2⟩, ⟨.fall, 2⟩] } : Cfg).wf = false := by decide

theorem test_wf_refuses_mirror_source : ({ Config.default with mirrorSrc0 := 4 } : Cfg).wf = false ∧
    ({ Config.default with mirrorSrc1 := 4 } : Cfg).wf = false := by decide

theorem test_wf_refuses_settle_cycles : (quick 0).wf = false ∧ (quick 65536).wf = false := by decide

theorem test_wf_refuses_sync_stages : ({ Config.default with syncStages := 4 } : Cfg).wf = false := by decide

/-- R7 and 95_test_vectors.md E9: 10 µs at 16 MHz are 160 cycles, and a third of a cycle more is one more. -/
theorem test_settle_cycles : Config.default.settleRealised ⟨15999999, 0⟩ = true ∧
    Config.settleCyclesFor ⟨160, 15999999⟩ ⟨15999999, 0⟩ = 161 ∧
    Config.settleCyclesFor ⟨480, 47999999⟩ ⟨15999999, 0⟩ = 161 := by decide

/-- R72: a word no row of the table covers is not well formed. -/
theorem test_wf_refuses_words : legalWord 0x000B#16 = false ∧ legalWord 0x0014#16 = false ∧
    legalWord 0x0101#16 = false ∧ legalWord 0xA504#16 = true := by decide

/-! One step per command: values of 95_test_vectors.md sections 2.2 to 2.6. -/

theorem test_nop_in_session : holds (exec .nop (inSession Config.default [] [])) (fun t =>
    readReg 0x01#5 t == 0x0006#16 && readReg 0x03#5 t == 0x0100#16) = true := by decide

theorem test_spi_init : holds (exec .spiInit State.reset) (fun t =>
    readReg 0x03#5 t == 0x0101#16 && readReg 0x01#5 t == 0x0002#16 && t.trace.length == 7) = true := by decide

theorem test_spi_init_in_session : holds (exec .spiInit (inSession Config.default [] [])) (fun t =>
    t.fault == some (.initInSession 0x0001#16)) = true := by decide

theorem test_spi_begin_active_high :
    holds (exec .spiBegin (ready { Config.default with csActive := true } [] [])) (fun t =>
      readReg 0x03#5 t == 0x0101#16 && readReg 0x01#5 t == 0x0006#16) = true := by decide

theorem test_spi_begin_before_init : holds (exec .spiBegin State.reset) (fun t =>
    t.fault == some (.spiNotInitialised 0x0002#16)) = true := by decide

theorem test_spi_end : holds (exec .spiEnd (inSession Config.default [] [])) (fun t =>
    readReg 0x03#5 t == 0x0101#16 && readReg 0x01#5 t == 0x0002#16) = true := by decide

theorem test_spi_end_without_session : holds (exec .spiEnd (ready Config.default [] [])) (fun t =>
    t.fault == some (.endWithoutSession 0x0003#16)) = true := by decide

/-- `out` = 0x5A, scripted draws 0,0,1,1,1,1,0,0. -/
theorem test_spi_xfer_scripted :
    holds (exec (.spiXfer 0x5A#8)
      (inSession Config.default [false, false, true, true, true, true, false, false] [])) (fun t =>
        readReg 0x02#5 t == 0x003C#16 && readReg 0x03#5 t == 0x0100#16 && readReg 0x01#5 t == 0x0026#16) = true := by
  decide

/-- Section 2.6: `SPI_XFER` before `SPI_INIT` reports code 2, not code 3. -/
theorem test_spi_xfer_fault_priority : holds (exec (.spiXfer 0xA5#8) State.reset) (fun t =>
    t.fault == some (.spiNotInitialised 0xA504#16)) = true := by decide

theorem test_trk_init : holds (exec .trkInit (withSamples [0xF3#8])) (fun t =>
    readReg 0x04#5 t == 0x0003#16 && readReg 0x08#5 t == 0x0FFF#16 && readReg 0x09#5 t == 0x0003#16
      && readReg 0x0A#5 t == 0#16 && readReg 0x01#5 t == 0x0048#16) = true := by decide

theorem test_trk_init_mirror :
    holds (exec .trkInit (start { Config.default with mirrorEn := true } [] [0b0110#8] [])) (fun t =>
      readReg 0x03#5 t == 0x0218#16 && readReg 0x0A#5 t == 0x0003#16) = true := by decide

theorem test_trk_sample : holds (exec .trkSample (running Config.default [0#8, 0b0011#8])) (fun t =>
    readReg 0x05#5 t == 0#16 && readReg 0x04#5 t == 0x0003#16 && readReg 0x01#5 t == 0x0048#16) = true := by decide

theorem test_trk_detect :
    holds (exec .trkDetect (trkSampleEffect (running Config.default [0#8, 0b0011#8]))) (fun t =>
      readReg 0x06#5 t == 0x0001#16 && readReg 0x01#5 t == 0x0058#16) = true := by decide

theorem test_trk_apply :
    holds (exec .trkApply (trkDetectEffect (trkSampleEffect (running Config.default [0#8, 0b0011#8])))) (fun t =>
      readReg 0x08#5 t == 0x0001#16 && readReg 0x10#5 t == 0#16) = true := by decide

/-- Section 2.5: the histories of a snapshot are those of the last render. -/
theorem test_trk_render :
    holds (exec .trkRender (trkApplyEffect (trkDetectEffect (trkSampleEffect (running Config.default [0#8, 0b0011#8])))))
      (fun t => readReg 0x10#5 t == 0x0001#16 && readReg 0x11#5 t == 0#16) = true := by decide

theorem test_trk_poll_falls : holds (exec .trkPoll (running Config.default [0b0011#8, 0#8])) (fun t =>
    readReg 0x06#5 t == 0x0003#16 && readReg 0x08#5 t == 0x0FFE#16 && readReg 0x11#5 t == 0x0002#16
      && readReg 0x01#5 t == 0x0058#16) = true := by decide

theorem test_trk_poll_before_init : holds (exec .trkPoll State.reset) (fun t =>
    t.fault == some (.trackerNotRunning 0x000A#16)) = true := by decide

/-! The tracker's functions, the display codes, the configuration registers, the assembler and the step. -/

/-- Section 2.4, with the policies `FALL`, `FALL`, `ANY`. -/
theorem test_detect_any_last :
    detect { Config.default with channels := [⟨.fall, 3⟩, ⟨.fall, 3⟩, ⟨.any, 16⟩] } 0x03#8 0x04#8 = 0x07#8 := by decide

theorem test_push_drops_the_oldest : push 0x800#16 true 12 = 0x001#16 ∧ push 0xFFFF#16 true 16 = 0xFFFF#16 := by decide

theorem test_seed : seed true 12 = 0xFFF#16 ∧ seed true 16 = 0xFFFF#16 ∧ seed false 2 = 0#16 := by decide

theorem test_display_codes : displayCodes 0b0110#16 4 = [0, 1, 3, 2] ∧ displayCodes 0b1#16 1 = [3] := by decide

theorem test_assembler_refuses : assembleLine "spi.xfer 256" = .refused ∧ assembleLine "nop 1" = .refused := by decide

/-- R33's values for the default configuration, and R49: a reserved address reads 0. -/
theorem test_register_map : readReg 0x07#5 State.reset = 0x0184#16 ∧ readReg 0x1A#5 State.reset = 0x020C#16 ∧
    readReg 0x1F#5 State.reset = 0#16 := by decide

/-- R73, R115: an illegal word written to CMD enters fault 1 and the run stops there. -/
theorem test_step_illegal_word : holds (step (start Config.default [] [] [.write 0#5 0x0010#16])) (fun t =>
    t.fault == some (.illegalCommand 0x0010#16) && faultsWith (step t) (.illegalCommand 0x0010#16)) = true := by decide

/-- R8: an ill-formed configuration is refused. -/
theorem test_step_refuses_config : refusesWith (step (start (quick 0) [] [] [])) .illFormedConfig = true := by decide

/-! Witnesses for the obligations on encoding, the step and the host port. -/

/-- The three clauses of an illegal word, each at the ends of its range, and the legal words beside them. -/
theorem witness_IllegalWord_words : decode 0x0010#16 = .illegal .reservedBits ∧ decode 0x00F0#16 = .illegal .reservedBits ∧
    decode 0x000B#16 = .illegal .reservedOpcode ∧ decode 0x0100#16 = .illegal .immediate ∧
    decode 0xFF0A#16 = .illegal .immediate ∧ decode 0x000A#16 = .command .trkPoll ∧
    decode 0x0104#16 = .command (.spiXfer 0x01#8) := by decide

theorem witness_IllegalWord_state : let s := start Config.default [] [] [.write 0#5 0x000B#16, .reset]
    s.cfg.wf = true ∧ s.fault = none ∧ s.seq = .idle ∧ s.host.queue = .write 0#5 0x000B#16 :: [.reset] := by decide

/-- The two ways a word is legal, at the ends of their ranges. -/
theorem witness_ExactlyTheWords : legalWord 0x0000#16 = true ∧ legalWord 0x000A#16 = true ∧ legalWord 0x0004#16 = true ∧
    legalWord 0xFF04#16 = true ∧ legalWord 0x000B#16 = false := by decide

theorem witness_StepRunsTheDecodedCommand : let s := start Config.default [] [] [.write 0#5 0xFF04#16]
    s.cfg.wf = true ∧ s.fault = none ∧ s.seq = .idle ∧ s.host.queue = .write 0#5 0xFF04#16 :: [] ∧
      decode 0xFF04#16 = .command (.spiXfer 0xFF#8) := by decide

theorem witness_PlacedWordRunsNext : State.reset.cfg.wf = true ∧ State.reset.fault = none ∧ State.reset.seq = .idle ∧
    decodeTableWord 16 0xFF04 = some (.spiXfer 0xFF#8) ∧ decodeTableWord 16 0 = some .nop := by decide

theorem witness_HostRead_idle : let s := start Config.default [] [] [.read 0x1F#5]
    s.cfg.wf = true ∧ s.fault = none ∧ s.host.queue = .read 0x1F#5 :: [] ∧ s.seq = .idle := by decide

theorem witness_HostRead_run : let s := transferring [.read 0x00#5]
    s.cfg.wf = true ∧ s.fault = none ∧ s.host.queue = .read 0x00#5 :: [] ∧ s.seq = .run := by decide

/-- The first and the last slot of the channels that do not exist, and a write beside CMD. -/
theorem witness_ReservedReads : let s := start Config.default [] [] [.write 0x01#5 0xFFFF#16]
    s.cfg.nch = 4 ∧ s.cfg.nch ≤ 7 ∧ widest.nch = 8 ∧ (0x01#5 : Addr) ≠ 0#5 ∧ s.cfg.wf = true ∧ s.fault = none ∧
      s.host.queue = .write 0x01#5 0xFFFF#16 :: [] ∧ s.seq = .idle := by decide

theorem witness_OtherWrites_run : let s := transferring [.write 0x1F#5 0x0003#16]
    (0x1F#5 : Addr) ≠ 0#5 ∧ s.cfg.wf = true ∧ s.fault = none ∧ s.host.queue = .write 0x1F#5 0x0003#16 :: [] ∧
      s.seq = .run := by decide

theorem witness_NothingAdvances : State.reset.cfg.wf = true ∧ State.reset.fault = none ∧ State.reset.seq = .idle ∧
    State.reset.host.queue = [] := by decide

theorem witness_CmdWriteHeld : let s := transferring [.write 0#5 0x0003#16]
    s.cfg.wf = true ∧ s.fault = none ∧ s.seq = .run ∧ s.host.queue = .write 0#5 0x0003#16 :: [] := by decide

theorem witness_IllFormedConfiguration : (quick 65536).wf = false ∧
    (start (quick 65536) [] [] []).cfg = quick 65536 ∧ (quick 65535).wf = true ∧ (quick 1).wf = true := by decide

/-! Witnesses for the obligations on registers and reset. -/

theorem witness_DataRegisterLayout : (start widest [] [] []).cfg.nch = 8 ∧ (7 : Nat) < widest.nch := by decide

theorem witness_ConfigurationRegisters : (start widest [] [] []).cfg.wf = true ∧ State.reset.cfg.wf = true := by decide

theorem witness_WireLevel : pinDirOf .spiCs (ready Config.default [] []) = .output ∧
    pinLatOf .spiCs (ready Config.default [] []) ≠ none ∧ pinDirOf .spiCs State.reset = .input := by decide

theorem witness_ResetSetsEveryElement : let s := raiseFault (.nestedSession 0x0002#16) (transferring [.reset])
    s.cfg.wf = true ∧ s.host.queue = .reset :: [] := by decide

/-! Witnesses for the obligations on the SPI unit. -/

theorem witness_SpiInit : (ready Config.default [] []).spi.session = false ∧
    (inSession Config.default [] []).spi.session = true := by decide

/-- A state for each of the three clauses of `SPI_BEGIN` and `SPI_END`, and of `SPI_XFER`. -/
theorem witness_SpiSessionCommands : (ready Config.default [] []).spi.spiRdy = true ∧
    (ready Config.default [] []).spi.session = false ∧ State.reset.spi.spiRdy = false ∧
    (inSession Config.default [] []).spi.spiRdy = true ∧ (inSession Config.default [] []).spi.session = true := by decide

theorem witness_ReceivedByte : ([true, false, true, false, false, true, false, true] : List Level).length = 8 ∧
    (0 : Nat) < 8 ∧ (7 : Nat) < 8 := by decide

/-- A loopback peer of the byte 0x81: the level before the transfer is 0 and each sample is the bit just driven. -/
theorem witness_Loopback : ∃ t es, (inSession Config.default [true, false, false, false, false, false, false, true] []).spi.spiRdy = true ∧
    (inSession Config.default [true, false, false, false, false, false, false, true] []).spi.session = true ∧
    exec (.spiXfer 0x81#8) (inSession Config.default [true, false, false, false, false, false, false, true] []) = .next t ∧
    t.trace = (inSession Config.default [true, false, false, false, false, false, false, true] []).trace ++ es ∧
    echoes false es = true :=
  ⟨_, xferEvents (serialBits 0x81#8) [true, false, false, false, false, false, false, true], rfl, rfl, rfl, by decide,
    by decide⟩

theorem witness_HoldsOfEveryCommand_xfer : ∃ t, exec (.spiXfer 0x00#8) (inSession Config.default (List.replicate 8 true) []) = .next t ∧
    (inSession Config.default (List.replicate 8 true) []).fault = none ∧ t.fault = none := ⟨_, rfl, rfl, by decide⟩

theorem witness_HoldsOfEveryCommand_session : ∃ t, exec .spiBegin (ready Config.default [] []) = .next t ∧
    (ready Config.default [] []).fault = none ∧ t.fault = none := ⟨_, rfl, rfl, by decide⟩

theorem witness_HoldsOfEveryCommand_others : ∃ t, exec .trkPoll (running Config.default [0#8, 1#8]) = .next t ∧
    (running Config.default [0#8, 1#8]).fault = none ∧ t.fault = none := ⟨_, rfl, by decide, by decide⟩

theorem witness_SessionOfAnyBytes : (ready Config.default [] []).spi.spiRdy = true ∧
    (ready Config.default [] []).spi.session = false := by decide

/-! Witnesses for the obligations on the tracker unit. -/

theorem witness_PushAndSeed : (16 : Nat) ≤ 16 ∧ (1 : Nat) ≤ 16 := by decide

/-- With a mirror and without one, eight channels and four, before `TRK_INIT` and after it. -/
theorem witness_TrkInit : (start widest [] [0x80#8] []).cfg.wf = true ∧ (start widest [] [0x80#8] []).trk.trkRun = false ∧
    widest.mirrorEn = true ∧ (7 : Nat) < widest.nch ∧ State.reset.cfg.wf = true ∧ State.reset.trk.trkRun = false ∧
    Config.default.mirrorEn = false ∧ Config.default.nch ≤ 4 ∧ (running widest [0x80#8]).trk.trkRun = true := by decide

/-- Both clauses of `TRK_SAMPLE`, `TRK_DETECT` and `TRK_RENDER`. -/
theorem witness_TrkCommands : (running Config.default [3#8]).trk.trkRun = true ∧ State.reset.trk.trkRun = false := by decide

/-- `TRK_APPLY` with flagged channels of both policies, an unflagged one and one that does not exist. -/
theorem witness_TrkApply : let s := detectChanges (takeSample (running Config.default [0b0011#8, 0#8]))
    s.cfg.wf = true ∧ s.trk.trkRun = true ∧ s.cfg.channels[0]? = some ⟨.any, 12⟩ ∧ s.trk.changes.getLsbD 0 = true ∧
      s.cfg.channels[1]? = some ⟨.fall, 2⟩ ∧ s.trk.changes.getLsbD 1 = true ∧ s.trk.changes.getLsbD 2 = false ∧
      s.cfg.nch ≤ 4 := by decide

/-- `TRK_POLL` without a change, and with one. -/
theorem witness_TrkPoll : let s := running Config.default [1#8, 1#8]
    let u := running Config.default [1#8, 0#8]
    s.cfg.wf = true ∧ s.trk.trkRun = true ∧ detect s.cfg s.trk.cur ((drawTrk s.env).1 &&& chMask s.cfg) = 0#8 ∧
      u.cfg.wf = true ∧ u.trk.trkRun = true ∧ detect u.cfg u.trk.cur ((drawTrk u.env).1 &&& chMask u.cfg) ≠ 0#8 ∧
      u.cfg.channels[0]? = some ⟨.any, 12⟩ ∧ u.cfg.nch ≤ 4 := by decide

theorem witness_TrkStepEqualsPoll : let s := running Config.default [1#8, 0#8]
    s.cfg.wf = true ∧ s.fault = none ∧ s.seq = .idle ∧ s.trk.trkRun = true := by decide

theorem witness_AnyChannel_init : ∃ t, (withSamples [1#8]).cfg.wf = true ∧ (withSamples [1#8]).fault = none ∧
    (withSamples [1#8]).cfg.channels[0]? = some ⟨.any, 12⟩ ∧ exec .trkInit (withSamples [1#8]) = .next t ∧ t.fault = none :=
  ⟨_, by decide, rfl, by decide, rfl, by decide⟩

theorem witness_AnyChannel_poll : ∃ t, (running Config.default [1#8, 0#8]).cfg.wf = true ∧
    (running Config.default [1#8, 0#8]).fault = none ∧
    (running Config.default [1#8, 0#8]).cfg.channels[0]? = some ⟨.any, 12⟩ ∧
    exec .trkPoll (running Config.default [1#8, 0#8]) = .next t ∧ t.fault = none ∧
    (running Config.default [1#8, 0#8]).trk.hist[0].getLsbD 0 = (running Config.default [1#8, 0#8]).trk.cur.getLsbD 0 :=
  ⟨_, by decide, by decide, by decide, rfl, by decide, by decide⟩

theorem witness_FallChannel : let s := running Config.default [2#8, 0#8]
    s.cfg.wf = true ∧ s.trk.trkRun = true ∧ s.cfg.channels[1]? = some ⟨.fall, 2⟩ ∧ s.trk.hist[1].toNat < 2 ^ 2 := by decide

/-- A history of width 1: the seed 1, then one flagged change. -/
theorem witness_Alternating : let s := start { Config.default with channels := [⟨.any, 1⟩, ⟨.fall, 2⟩, ⟨.fall, 2⟩] } [] [1#8, 0#8] []
    s.cfg.wf = true ∧ s.trk.trkRun = false ∧ s.cfg.channels[0]? = some ⟨.any, 1⟩ ∧
      drawSamples (1 + 1) s.env = (1#8 :: [0#8], ⟨[], [], 0, 0⟩) ∧
      alternates ((1#8 : Byte).getLsbD 0) (([0#8] : List Byte).map fun u => u.getLsbD 0) = true := by decide

/-- A history of width 4 from a high seed (95_test_vectors.md E4). -/
theorem witness_Alternating_four :
    let s := start { Config.default with channels := [⟨.any, 4⟩, ⟨.fall, 2⟩, ⟨.fall, 2⟩] } [] [1#8, 0#8, 1#8, 0#8, 1#8] []
    s.cfg.wf = true ∧ s.trk.trkRun = false ∧ s.cfg.channels[0]? = some ⟨.any, 4⟩ ∧
      drawSamples (4 + 1) s.env = (1#8 :: [0#8, 1#8, 0#8, 1#8], ⟨[], [], 0, 0⟩) ∧
      alternates ((1#8 : Byte).getLsbD 0) (([0#8, 1#8, 0#8, 1#8] : List Byte).map fun u => u.getLsbD 0) = true := by decide

theorem witness_DisplayCodes : (0 : Nat) < 16 ∧ (15 : Nat) < 16 := by decide

/-! Witnesses for the obligations on faults and on the whole machine. -/

theorem witness_OnlyResetLeavesAFault : let s := raiseFault (.nestedSession 0x0002#16) (start Config.default [] [] [.read 1#5])
    s.cfg.wf = true ∧ s.fault = some (.nestedSession 0x0002#16) ∧ ∀ rest, s.host.queue ≠ .reset :: rest :=
  ⟨by decide, rfl, fun _ h => by cases h⟩

theorem witness_OnlyResetLeavesAFault_reset : ∃ t,
    (raiseFault (.nestedSession 0x0002#16) (start Config.default [] [] [.reset])).cfg.wf = true ∧
    step (raiseFault (.nestedSession 0x0002#16) (start Config.default [] [] [.reset])) = .next t := ⟨_, by decide, rfl⟩

theorem witness_TrackerRunsOnlyAfterTrkInit : ∃ t, (withSamples [1#8]).trk.trkRun = false ∧
    exec .trkInit (withSamples [1#8]) = .next t ∧ t.trk.trkRun = true := ⟨_, rfl, rfl, by decide⟩

theorem witness_TrackerRunsOnlyAfterTrkInit_fault : ∃ t, State.reset.trk.trkRun = false ∧
    exec .trkPoll State.reset = .next t ∧ Instr.trkPoll ∈ [Instr.trkSample, .trkDetect, .trkApply, .trkRender, .trkPoll] :=
  ⟨_, rfl, rfl, by decide⟩

/-- A command of each unit, for the frame and for the units' independence. -/
theorem witness_Frame_spi : ∃ t, exec .spiBegin (ready Config.default [] []) = .next t ∧
    Instr.spiBegin ∈ [Instr.spiInit, .spiBegin, .spiEnd] := ⟨_, rfl, by decide⟩

theorem witness_Frame_trk : ∃ t, exec .trkInit (withSamples [1#8]) = .next t ∧
    Instr.trkInit ∈ [Instr.trkInit, .trkSample, .trkDetect, .trkApply, .trkRender, .trkPoll] := ⟨_, rfl, by decide⟩

theorem witness_OnlyResetClears : ∃ t, step (start Config.default [] [] [.write 0#5 0x0001#16]) = .next t ∧
    ∀ rest, (start Config.default [] [] [.write 0#5 0x0001#16]).host.queue ≠ .reset :: rest :=
  ⟨_, rfl, fun _ h => by cases h⟩

/-- Between commands with both units at work, a transfer pending. -/
def idleWork : State :=
  setQueue [.write 0#5 0xA504#16] (spiBeginEffect (spiInitEffect (running (quick 1) [0b0011#8, 0#8])))

/-- A transfer just accepted, with both units at work and a CMD write that is held. -/
def busyWork : State := setQueue [.write 0#5 0x0003#16] (spiXferStart 0xA5#8 idleWork)

theorem witness_Inv_idle : idleWork.Inv := by
  refine ⟨by decide, ?_, ?_⟩
  · refine ⟨by decide, by decide, by decide, by decide, by decide, by decide, fun _ => ?_, fun h => by cases h⟩
    unfold State.IdleOk
    decide
  · exact ⟨by decide, by decide, by decide, by decide, by unfold bankOk; decide, by unfold bankOk; decide, by decide,
      by decide, by decide, by decide, by decide⟩

theorem witness_Inv_busy : busyWork.Inv := by
  refine ⟨by decide, ?_, ?_⟩
  · refine ⟨by decide, by decide, by decide, by decide, by decide, by decide, (fun h => by cases h), fun _ => ?_⟩
    have h : decode busyWork.curCmd = .command (.spiXfer 0xA5#8) := by decide
    rw [State.RunningOk, h]
    decide
  · exact ⟨by decide, by decide, by decide, by decide, by unfold bankOk; decide, by unfold bankOk; decide, by decide,
      by decide, by decide, by decide, by decide⟩

theorem witness_StepKeepsTheInvariant : ∃ t, idleWork.Inv ∧ step idleWork = .next t := ⟨_, witness_Inv_idle, rfl⟩

theorem witness_CycleKeepsTheInvariant : ∃ t, busyWork.Inv ∧ cycleStep busyWork = .next t := ⟨_, witness_Inv_busy, rfl⟩

/-- A state reached by whole commands, and one reached by cycles. -/
theorem witness_FactsBetweenCommands : ∃ s, Reachable step s ∧ s.seq = .idle ∧ s.fault = none ∧ s.spi.spiRdy = true :=
  ⟨_, .step (.reset Config.default ⟨[], [], 0, 0⟩ ⟨[.write 0#5 0x0001#16], []⟩ (by decide)) rfl, rfl, rfl, by decide⟩

theorem witness_FactsBetweenCommands_cycle :
    ∃ s, Reachable cycleStep s ∧ s.seq = .idle ∧ s.fault = none ∧ s.spi.spiRdy = true :=
  ⟨_, .step (.reset Config.default ⟨[], [], 0, 0⟩ ⟨[.write 0#5 0x0001#16], []⟩ (by decide)) rfl, rfl, rfl, by decide⟩

/-- A transfer with the shortest hold: its first cycle and its last before completion. -/
theorem witness_CycleLevel : let s := inSession (quick 1) [] []
    s.cfg.wf = true ∧ s.seq = .idle ∧ s.spi.holdCnt = 0#16 ∧ s.fault = none ∧ legalIn (.spiXfer 0xA5#8) s = true ∧
      legalIn .spiEnd s = true ∧ 0 < cycleCount (.spiXfer 0xA5#8) 1 - 1 ∧ 47 < cycleCount (.spiXfer 0xA5#8) 1 - 1 := by
  decide

/-- Commands of the other kinds that are accepted: `NOP`, and one command of each unit. -/
theorem witness_CycleLevel_others : legalIn .nop State.reset = true ∧ legalIn .spiInit State.reset = true ∧
    legalIn .trkInit State.reset = true ∧ legalIn .spiBegin (ready (quick 1) [] []) = true ∧
    legalIn .trkPoll (running Config.default [1#8]) = true ∧ State.reset.cfg.wf = true ∧ State.reset.seq = .idle ∧
    State.reset.spi.holdCnt = 0#16 ∧ State.reset.fault = none := by decide

/-- R94: the acceptance of `NOP` sets `CUR_CMD` to its word and `BUSY` stays 0. -/
theorem test_nop_acceptance : holds (startCommand .nop (inSession (quick 1) [] [])) (fun t =>
    t.curCmd == 0x0000#16 && !busy t && readReg 0x01#5 t == 0x0006#16) = true := by decide

theorem witness_AcceptanceFaults : State.reset.fault = none ∧ legalIn .spiEnd State.reset = false ∧
    startCommand .spiEnd State.reset = .next { State.reset with fault := some (.spiNotInitialised 0x0003#16) } :=
  ⟨rfl, rfl, rfl⟩

/-- The last cycle of a hold and its first. -/
theorem witness_HoldKeepsEveryPin : (advance (transferring [])).seq = .run ∧
    (advance (transferring [])).spi.holdCnt = 1#16 ∧
    (spiBeginStart (ready (quick 65535) [] [])).spi.holdCnt = 0xFFFF#16 := by decide

theorem witness_EveryCommandEnds : busyWork.Inv ∧ busyWork.seq = .run := ⟨witness_Inv_busy, rfl⟩

end Sys2Proof.Tests
end

section
/-! The scope of the machine (00_scope.md): which configurations have a machine (R8), and that nothing advances by
itself (R14). -/

namespace Sys2Proof

/-- R8's clause on the policies, as `Cfg.oneAny` counts it and as one channel that no other equals. -/
theorem Cfg.oneAny_iff (cfg : Cfg) :
    cfg.oneAny = true ↔ ∃! c : Fin cfg.channels.length, cfg.channels[c].policy = .any := by
  have hcard := Fin.card_filter_univ_eq_vector_get_eq_count EdgePolicy.any
    (List.Vector.ofFn fun c : Fin cfg.channels.length => cfg.channels[c].policy)
  have hlist : List.ofFn (fun c : Fin cfg.channels.length => cfg.channels[c].policy) =
      cfg.channels.map Chan.policy := List.ofFn_getElem_eq_map _ _
  simp only [List.Vector.get_ofFn, List.Vector.toList_ofFn, hlist, List.count_eq_countP, List.countP_map] at hcard
  rw [Fintype.existsUnique_iff_card_one, hcard, Cfg.oneAny, beq_iff_eq]
  rfl

/-- R8's clause on the history widths. -/
theorem Cfg.widthsOk_iff (cfg : Cfg) :
    cfg.widthsOk = true ↔ ∀ ch ∈ cfg.channels, 1 ≤ ch.width ∧ ch.width ≤ 16 := by
  simp only [Cfg.widthsOk, List.all_eq_true, decide_eq_true_eq]

/-- Well-formedness is the conjunction of the clauses of R8. -/
theorem Cfg.wf_iff (cfg : Cfg) :
    cfg.wf = true ↔
      (1 ≤ cfg.channels.length ∧ cfg.channels.length ≤ 8) ∧
      (∀ ch ∈ cfg.channels, 1 ≤ ch.width ∧ ch.width ≤ 16) ∧
      (∃! c : Fin cfg.channels.length, cfg.channels[c].policy = .any) ∧
      (cfg.mirrorSrc0 < cfg.channels.length ∧ cfg.mirrorSrc1 < cfg.channels.length) ∧
      (1 ≤ cfg.settleCycles ∧ cfg.settleCycles ≤ 65535) ∧ cfg.syncStages ≤ 3 := by
  simp only [Cfg.wf, Bool.and_eq_true, decide_eq_true_eq, Cfg.widthsOk_iff, Cfg.oneAny_iff, and_assoc]
  rfl

end Sys2Proof

namespace Sys2Proof.Machine

/-- An ill-formed configuration has no machine, whatever an issued command would do (R8). -/
theorem hostStep_of_illFormed (run : Instr → State → Answer) {s : State} (hwf : s.cfg.wf = false) :
    hostStep run s = .refused .illFormedConfig := by
  simp [hostStep, hwf]

/-- With no access pending the step is a cycle of the sequencer alone, whatever an issued command would do (R14). -/
theorem hostStep_of_no_access (run : Instr → State → Answer) {s : State} (hwf : s.cfg.wf = true)
    (hfault : s.fault = none) (hqueue : s.host.queue = []) : hostStep run s = .next (advance s) := by
  simp [hostStep, hwf, hfault, hqueue]

/-- An idle sequencer has nothing to do in a cycle (R94). -/
theorem advance_of_idle {s : State} (hidle : s.seq = .idle) : advance s = s := by
  simp [advance, hidle]

/-- Settles O11: the clauses of R8 are those of `Cfg.wf_iff`, and both machines are `hostStep`, which refuses any other
configuration before it looks at the access. -/
theorem illFormedConfigurationIsRefused : Obligations.IllFormedConfigurationIsRefused := by
  intro cfg
  refine ⟨cfg.wf_iff, fun hwf s hs => ?_⟩
  subst hs
  exact ⟨hostStep_of_illFormed exec hwf, hostStep_of_illFormed startCommand hwf⟩

/-- Settles O9: with no access pending only the sequencer's cycle is left, and an idle sequencer keeps the state. -/
theorem nothingAdvancesByItself : Obligations.NothingAdvancesByItself := by
  intro s hwf hfault hidle hqueue
  calc step s = .next (advance s) := hostStep_of_no_access exec hwf hfault hqueue
    _ = .next s := by rw [advance_of_idle hidle]

end Sys2Proof.Machine
end

section
/-! What one step or cycle can do, in the terms of the commands: a checked command and its effect (60_exceptions.md
R124), and the host's access around it (20_memory.md R44, R55). -/

namespace Sys2Proof.Machine

/-- The contract checks of a command (60_exceptions.md R115 to R123), the same for the whole command and for its
acceptance cycle: `exec_eq_faultOr` and `startCommand_eq_faultOr`. -/
def contractFault (i : Instr) (s : State) : Option Fault :=
  match i with
  | .nop => none
  | .spiInit => spiInitFault s
  | .spiBegin => spiBeginFault s
  | .spiEnd => spiEndFault s
  | .spiXfer out => spiXferFault out s
  | .trkInit => trkInitFault s
  | .trkSample => notRunningFault (encode .trkSample) s
  | .trkDetect => notRunningFault (encode .trkDetect) s
  | .trkApply => notRunningFault (encode .trkApply) s
  | .trkRender => notRunningFault (encode .trkRender) s
  | .trkPoll => notRunningFault (encode .trkPoll) s

/-- The effect of the acceptance cycle of a command (R94): a command without a hold performs all its effects in it. -/
def acceptEffect (i : Instr) (s : State) : State :=
  match i with
  | .nop => nopStart s
  | .spiBegin => spiBeginStart s
  | .spiEnd => spiEndStart s
  | .spiXfer out => spiXferStart out s
  | .spiInit | .trkInit | .trkSample | .trkDetect | .trkApply | .trkRender | .trkPoll => hardwareExec i s

theorem exec_eq_faultOr (i : Instr) (s : State) : exec i s = faultOr (contractFault i s) (hardwareExec i) s := by
  cases i <;> rfl

theorem startCommand_eq_faultOr (i : Instr) (s : State) :
    startCommand i s = faultOr (contractFault i s) (acceptEffect i) s := by
  cases i <;> rfl

theorem firstFault_cons_eq_none_iff (b : Bool) (f : Fault) (rest : List (Bool × Fault)) :
    firstFault ((b, f) :: rest) = none ↔ b = false ∧ firstFault rest = none := by
  cases b <;> simp

/-- No contract check fails exactly in the states in which the command is legal. -/
theorem contractFault_eq_none_iff (i : Instr) (s : State) : contractFault i s = none ↔ legalIn i s = true := by
  cases i <;>
    simp [contractFault, legalIn, spiInitFault, spiBeginFault, spiEndFault, spiXferFault, trkInitFault,
      notRunningFault, firstFault_cons_eq_none_iff, -firstFault_cons]

/-- A checked command answers a next state by its effect, when it is legal, or by a fault. -/
theorem faultOr_contract_cases {i : Instr} {e : State → State} {s t : State}
    (h : faultOr (contractFault i s) e s = .next t) :
    (legalIn i s = true ∧ t = e s) ∨ ∃ f, t = raiseFault f s := by
  obtain ⟨hnone, ht⟩ | ⟨f, -, ht⟩ := faultOr_next_iff.1 h
  · exact .inl ⟨(contractFault_eq_none_iff i s).1 hnone, ht⟩
  · exact .inr ⟨f, ht⟩

/-- What a whole command can do. -/
theorem exec_next_cases {i : Instr} {s t : State} (h : exec i s = .next t) :
    (legalIn i s = true ∧ t = hardwareExec i s) ∨ ∃ f, t = raiseFault f s :=
  faultOr_contract_cases (exec_eq_faultOr i s ▸ h)

/-- What the acceptance cycle of a command can do. -/
theorem startCommand_next_cases {i : Instr} {s t : State} (h : startCommand i s = .next t) :
    (legalIn i s = true ∧ t = acceptEffect i s) ∨ ∃ f, t = raiseFault f s :=
  faultOr_contract_cases (startCommand_eq_faultOr i s ▸ h)

/-- What a step can do to the block: after a change of the host's side alone, a reset, a cycle of the sequencer, a
fault, or, when the sequencer is idle, the command `run`. -/
theorem hostStep_block_cases {run : Instr → State → Answer} {s t : State} (h : hostStep run s = .next t) :
    ∃ p : HostPort,
      (t = resetBlock { s with host := p } ∧ ∃ rest, s.host.queue = .reset :: rest) ∨
      t = advance { s with host := p } ∨ (∃ f, t = raiseFault f { s with host := p }) ∨
      (s.seq = .idle ∧ ∃ i, run i { s with host := p } = .next t) := by
  obtain ⟨-, ⟨rest, hq, rfl⟩ | ⟨-, ⟨-, rfl⟩ | ⟨a, rest, -, rfl⟩ | ⟨a, v, rest, -, -, rfl⟩ | ⟨v, rest, -, -, rfl⟩ |
    ⟨v, rest, -, hidle, hissue⟩⟩⟩ := hostStep_cases h
  · exact ⟨⟨rest, s.host.readLog⟩, .inl ⟨rfl, rest, hq⟩⟩
  · exact ⟨s.host, .inr (.inl rfl)⟩
  · exact ⟨_, .inr (.inl rfl)⟩
  · exact ⟨_, .inr (.inl rfl)⟩
  · exact ⟨s.host, .inr (.inl rfl)⟩
  · refine ⟨⟨rest, s.host.readLog⟩, .inr (.inr ?_)⟩
    obtain ⟨i, -, hrun⟩ | ⟨why, -, rfl⟩ := issueWord_cases hissue
    · exact .inr ⟨hidle, i, hrun⟩
    · exact .inl ⟨_, rfl⟩

/-- A property that the host's side does not decide, and that a reset, a fault, a cycle of the sequencer and a command
issued while it is idle keep, is kept by a step. -/
theorem hostStep_keeps {P : State → Prop} {run : Instr → State → Answer}
    (hhost : ∀ s p, P s → P { s with host := p }) (hreset : ∀ s, P s → P (resetBlock s))
    (hfault : ∀ f s, P s → P (raiseFault f s)) (hadvance : ∀ s, P s → P (advance s))
    (hrun : ∀ i s t, P s → s.seq = .idle → run i s = .next t → P t) {s t : State} (hs : P s)
    (h : hostStep run s = .next t) : P t := by
  obtain ⟨p, ⟨rfl, -⟩ | rfl | ⟨f, rfl⟩ | ⟨hidle, i, hi⟩⟩ := hostStep_block_cases h
  · exact hreset _ (hhost s p hs)
  · exact hadvance _ (hhost s p hs)
  · exact hfault f _ (hhost s p hs)
  · exact hrun i _ t (hhost s p hs) hidle hi

end Sys2Proof.Machine
end

section
/-! The frame of every command and of every cycle (10_state.md R16, 20_memory.md R66): what the operations of one unit
leave, and that the sticky fields and the trace only grow (R20, R22, R24, R25, R42). -/

namespace Sys2Proof.Machine

/-- From `s` to `t` only the SPI unit, the sequencer, the peer's levels and the trace change, `SPI_RDY` and `RX_VALID`
staying 1 and the trace growing. -/
structure SpiFrame (s t : State) : Prop where
  cfg : t.cfg = s.cfg
  trk : t.trk = s.trk
  host : t.host = s.host
  samples : t.env.trk = s.env.trk
  sampleCount : t.env.trkCount = s.env.trkCount
  rdy_kept : s.spi.spiRdy = true → t.spi.spiRdy = true
  rx_kept : s.spi.rxValid = true → t.spi.rxValid = true
  trace_grows : s.trace <+: t.trace

/-- From `s` to `t` only the tracker unit, `CUR_CMD`, the listed samples and the trace change, `TRK_RUN` and
`REND_VALID` staying 1 and the trace growing. -/
structure TrkFrame (s t : State) : Prop where
  cfg : t.cfg = s.cfg
  seq : t.seq = s.seq
  spi : t.spi = s.spi
  host : t.host = s.host
  levels : t.env.miso = s.env.miso
  levelCount : t.env.misoCount = s.env.misoCount
  run_kept : s.trk.trkRun = true → t.trk.trkRun = true
  rendered_kept : s.trk.rendValid = true → t.trk.rendValid = true
  trace_grows : s.trace <+: t.trace

variable (s : State)

/-! The SPI unit -/

theorem SpiFrame.refl : SpiFrame s s := ⟨rfl, rfl, rfl, rfl, rfl, id, id, List.prefix_rfl⟩

theorem SpiFrame.trans {s t u : State} (h₁ : SpiFrame s t) (h₂ : SpiFrame t u) : SpiFrame s u where
  cfg := h₂.cfg.trans h₁.cfg
  trk := h₂.trk.trans h₁.trk
  host := h₂.host.trans h₁.host
  samples := h₂.samples.trans h₁.samples
  sampleCount := h₂.sampleCount.trans h₁.sampleCount
  rdy_kept := h₂.rdy_kept ∘ h₁.rdy_kept
  rx_kept := h₂.rx_kept ∘ h₁.rx_kept
  trace_grows := h₁.trace_grows.trans h₂.trace_grows

@[simp] theorem drawMiso_trk (e : Env) : (drawMiso e).2.trk = e.trk := by
  unfold drawMiso
  split <;> rfl

@[simp] theorem drawMiso_trkCount (e : Env) : (drawMiso e).2.trkCount = e.trkCount := by
  unfold drawMiso
  split <;> rfl

theorem spiFrame_bitPeriod (n : BitVec 3) : SpiFrame s (bitPeriod n s) := by
  rw [bitPeriod_eq]
  constructor <;> simp

theorem spiFrame_bitPeriods (n : Nat) : SpiFrame s (bitPeriods n s) := by
  induction n generalizing s with
  | zero => exact .refl s
  | succ n ih => exact (spiFrame_bitPeriod s _).trans (ih _)

theorem spiFrame_spiXferEffect (out : Byte) : SpiFrame s (spiXferEffect out s) := by
  have hload : SpiFrame s (loadShift out (acceptWord (encode (.spiXfer out)) s)) := by constructor <;> simp
  have hcommit (u : State) : SpiFrame u (commitRx u) := by constructor <;> simp
  exact hload.trans ((spiFrame_bitPeriods _ 8).trans (hcommit _))

theorem spiFrame_phaseAction (p : Phase) : SpiFrame s (phaseAction p s) := by
  cases p <;> constructor <;> simp [phaseAction]

theorem spiFrame_phaseDone : SpiFrame s (phaseDone s) := by
  unfold phaseDone
  split
  · constructor <;> simp
  · constructor <;> simp
  · dsimp only
    split <;> constructor <;> simp [toIdle]

theorem spiFrame_countHold {done : State → State} (hdone : ∀ s, SpiFrame s (done s)) :
    SpiFrame s (countHold done s) := by
  have hcount (n : BitVec 16) : SpiFrame s { s with spi := { s.spi with holdCnt := n } } := by constructor <;> simp
  unfold countHold
  split
  · exact (hcount _).trans (hdone _)
  · exact hcount _

theorem spiFrame_xferCycle : SpiFrame s (xferCycle s) := by
  have hstart (u : State) : SpiFrame u (startHold u) := by constructor <;> simp
  unfold xferCycle
  split
  · exact (spiFrame_phaseAction s _).trans (hstart _)
  · exact spiFrame_countHold s spiFrame_phaseDone

theorem spiFrame_toIdle : SpiFrame s (toIdle s) := by constructor <;> simp [toIdle]

theorem spiFrame_endSession (v : Bool) : SpiFrame s (toIdle (setSession v s)) := by constructor <;> simp [toIdle]

theorem spiFrame_runCycle : SpiFrame s (runCycle s) := by
  unfold runCycle
  cases decode s.curCmd with
  | illegal why => exact spiFrame_toIdle s
  | command i =>
    cases i
    case spiBegin => exact spiFrame_countHold s fun u => spiFrame_endSession u true
    case spiEnd => exact spiFrame_countHold s fun u => spiFrame_endSession u false
    case spiXfer out => exact spiFrame_xferCycle s
    all_goals exact spiFrame_toIdle s

/-- A cycle of the sequencer has the frame of the SPI unit: no tracker command outlives its acceptance cycle. -/
theorem spiFrame_advance : SpiFrame s (advance s) := by
  unfold advance
  split
  · exact spiFrame_runCycle s
  · exact .refl s

/-! The tracker unit -/

theorem TrkFrame.refl : TrkFrame s s := ⟨rfl, rfl, rfl, rfl, rfl, rfl, id, id, List.prefix_rfl⟩

theorem TrkFrame.trans {s t u : State} (h₁ : TrkFrame s t) (h₂ : TrkFrame t u) : TrkFrame s u where
  cfg := h₂.cfg.trans h₁.cfg
  seq := h₂.seq.trans h₁.seq
  spi := h₂.spi.trans h₁.spi
  host := h₂.host.trans h₁.host
  levels := h₂.levels.trans h₁.levels
  levelCount := h₂.levelCount.trans h₁.levelCount
  run_kept := h₂.run_kept ∘ h₁.run_kept
  rendered_kept := h₂.rendered_kept ∘ h₁.rendered_kept
  trace_grows := h₁.trace_grows.trans h₂.trace_grows

@[simp] theorem drawTrk_miso (e : Env) : (drawTrk e).2.miso = e.miso := by
  unfold drawTrk
  split <;> rfl

@[simp] theorem drawTrk_misoCount (e : Env) : (drawTrk e).2.misoCount = e.misoCount := by
  unfold drawTrk
  split <;> rfl

theorem trkFrame_acceptWord (w : Word) : TrkFrame s (acceptWord w s) := by constructor <;> simp

theorem trkFrame_pinDir_trkIn (c : Fin 8) (d : Dir) : TrkFrame s (pinDir (.trkIn c) d s) := by constructor <;> simp

theorem trkFrame_configureInputs : TrkFrame s (configureInputs s) := by
  unfold configureInputs
  generalize channelPins s.cfg = cs
  induction cs generalizing s with
  | nil => exact .refl s
  | cons c cs ih => exact (trkFrame_pinDir_trkIn s c .input).trans (ih _)

theorem trkFrame_takeSample : TrkFrame s (takeSample s) := by constructor <;> simp

theorem trkFrame_firstSample : TrkFrame s (firstSample s) := by constructor <;> simp [firstSample]

theorem trkFrame_setChanges (m : Byte) : TrkFrame s (setChanges m s) := by constructor <;> simp

theorem trkFrame_pushHistories : TrkFrame s (pushHistories s) := by constructor <;> simp [pushHistories]

theorem trkFrame_seedHistories : TrkFrame s (seedHistories s) := by constructor <;> simp [seedHistories]

theorem trkFrame_renderSnapshot : TrkFrame s (renderSnapshot s) := by
  constructor <;> simp [renderSnapshot, copyRend]

theorem trkFrame_setTrkRun : TrkFrame s (setTrkRun s) := by constructor <;> simp

/-- The mirror outputs take the newest recorded levels of their sources, when there is a mirror (R101). -/
theorem mirrorUpdate_eq : mirrorUpdate s =
    if s.cfg.mirrorEn then { s with
      trk := { s.trk with out0Lat := newestBit s.cfg.mirrorSrc0 s, out1Lat := newestBit s.cfg.mirrorSrc1 s }
      trace := s.trace ++ [.drive .trkOut0 (newestBit s.cfg.mirrorSrc0 s),
        .drive .trkOut1 (newestBit s.cfg.mirrorSrc1 s)] }
    else s := by
  unfold mirrorUpdate
  split
  · simp [pinWrite, emit, setLat]
    rfl
  · rfl

theorem trkFrame_mirrorUpdate : TrkFrame s (mirrorUpdate s) := by
  rw [mirrorUpdate_eq]
  split
  · constructor <;> simp
  · exact .refl s

theorem trkFrame_configureMirror : TrkFrame s (configureMirror s) := by
  have houtputs (u : State) : TrkFrame u (pinDir .trkOut1 .output (pinDir .trkOut0 .output u)) := by
    constructor <;> simp
  unfold configureMirror
  split
  · exact (trkFrame_mirrorUpdate s).trans (houtputs _)
  · exact .refl s

theorem trkFrame_applyChanges : TrkFrame s (applyChanges s) :=
  (trkFrame_pushHistories s).trans (trkFrame_mirrorUpdate _)

theorem trkFrame_reactToChanges : TrkFrame s (reactToChanges s) := by
  unfold reactToChanges
  split
  · exact (trkFrame_applyChanges s).trans (trkFrame_renderSnapshot _)
  · exact .refl s

/-! Every command -/

/-- A command of the SPI unit (R78). -/
def IsSpiCommand (i : Instr) : Prop := i ∈ [Instr.spiInit, .spiBegin, .spiEnd] ∨ ∃ out, i = .spiXfer out

/-- A command of the tracker unit (R95). -/
def IsTrkCommand (i : Instr) : Prop :=
  i ∈ [Instr.trkInit, .trkSample, .trkDetect, .trkApply, .trkRender, .trkPoll]

theorem isSpiCommand_iff (i : Instr) :
    IsSpiCommand i ↔ i = .spiInit ∨ i = .spiBegin ∨ i = .spiEnd ∨ ∃ out, i = .spiXfer out := by
  simp [IsSpiCommand, or_assoc]

theorem isTrkCommand_iff (i : Instr) : IsTrkCommand i ↔
    i = .trkInit ∨ i = .trkSample ∨ i = .trkDetect ∨ i = .trkApply ∨ i = .trkRender ∨ i = .trkPoll := by
  simp [IsTrkCommand]

/-- `NOP` is of neither unit; every other command is of one. -/
theorem command_cases (i : Instr) : i = .nop ∨ IsSpiCommand i ∨ IsTrkCommand i := by
  cases i <;> simp [IsSpiCommand, IsTrkCommand]

theorem spiFrame_hardwareExec {i : Instr} (hi : IsSpiCommand i) : SpiFrame s (hardwareExec i s) := by
  obtain rfl | rfl | rfl | ⟨out, rfl⟩ := (isSpiCommand_iff i).1 hi
  · constructor <;> simp [hardwareExec, spiInitEffect]
  · constructor <;> simp [hardwareExec, spiBeginEffect]
  · constructor <;> simp [hardwareExec, spiEndEffect]
  · exact spiFrame_spiXferEffect s out

theorem trkFrame_hardwareExec {i : Instr} (hi : IsTrkCommand i) : TrkFrame s (hardwareExec i s) := by
  have haccept := trkFrame_acceptWord s (encode i)
  obtain rfl | rfl | rfl | rfl | rfl | rfl := (isTrkCommand_iff i).1 hi
  · exact haccept.trans <| (trkFrame_configureInputs _).trans <| (trkFrame_firstSample _).trans <|
      (trkFrame_setChanges _ _).trans <| (trkFrame_seedHistories _).trans <| (trkFrame_renderSnapshot _).trans <|
      (trkFrame_configureMirror _).trans (trkFrame_setTrkRun _)
  · exact haccept.trans (trkFrame_takeSample _)
  · exact haccept.trans (trkFrame_setChanges _ _)
  · exact haccept.trans (trkFrame_applyChanges _)
  · exact haccept.trans (trkFrame_renderSnapshot _)
  · exact haccept.trans <| (trkFrame_takeSample _).trans <| (trkFrame_setChanges _ _).trans (trkFrame_reactToChanges _)

/-- From `s` to `t` the configuration and the host's side stay, the four sticky fields stay 1 once they are, and the
trace grows: what the two frames have in common. -/
structure OnlyGrows (s t : State) : Prop where
  cfg : t.cfg = s.cfg
  host : t.host = s.host
  rdy_kept : s.spi.spiRdy = true → t.spi.spiRdy = true
  run_kept : s.trk.trkRun = true → t.trk.trkRun = true
  rx_kept : s.spi.rxValid = true → t.spi.rxValid = true
  rendered_kept : s.trk.rendValid = true → t.trk.rendValid = true
  trace_grows : s.trace <+: t.trace

theorem SpiFrame.onlyGrows {s t : State} (h : SpiFrame s t) : OnlyGrows s t :=
  ⟨h.cfg, h.host, h.rdy_kept, h.trk ▸ id, h.rx_kept, h.trk ▸ id, h.trace_grows⟩

theorem TrkFrame.onlyGrows {s t : State} (h : TrkFrame s t) : OnlyGrows s t :=
  ⟨h.cfg, h.host, h.spi ▸ id, h.run_kept, h.spi ▸ id, h.rendered_kept, h.trace_grows⟩

theorem onlyGrows_raiseFault (f : Fault) : OnlyGrows s (raiseFault f s) := ⟨rfl, rfl, id, id, id, id, List.prefix_rfl⟩

theorem onlyGrows_hardwareExec (i : Instr) : OnlyGrows s (hardwareExec i s) := by
  obtain rfl | hi | hi := command_cases i
  · exact (SpiFrame.refl s).onlyGrows
  · exact (spiFrame_hardwareExec s hi).onlyGrows
  · exact (trkFrame_hardwareExec s hi).onlyGrows

/-- No tracker command has a hold, so its acceptance cycle does all of it (R94). -/
theorem acceptEffect_of_trk {i : Instr} (hi : IsTrkCommand i) : acceptEffect i s = hardwareExec i s := by
  obtain rfl | rfl | rfl | rfl | rfl | rfl := (isTrkCommand_iff i).1 hi <;> rfl

theorem spiFrame_acceptEffect {i : Instr} (hi : IsSpiCommand i) : SpiFrame s (acceptEffect i s) := by
  obtain rfl | rfl | rfl | ⟨out, rfl⟩ := (isSpiCommand_iff i).1 hi
  · exact spiFrame_hardwareExec (i := .spiInit) s hi
  · constructor <;> simp [acceptEffect, spiBeginStart]
  · constructor <;> simp [acceptEffect, spiEndStart]
  · constructor <;> simp [acceptEffect, spiXferStart]

theorem onlyGrows_acceptEffect (i : Instr) : OnlyGrows s (acceptEffect i s) := by
  obtain rfl | hi | hi := command_cases i
  · constructor <;> simp [acceptEffect]
  · exact (spiFrame_acceptEffect s hi).onlyGrows
  · exact acceptEffect_of_trk s hi ▸ (trkFrame_hardwareExec s hi).onlyGrows

theorem onlyGrows_exec {i : Instr} {s t : State} (h : exec i s = .next t) : OnlyGrows s t := by
  obtain ⟨-, rfl⟩ | ⟨f, rfl⟩ := exec_next_cases h
  · exact onlyGrows_hardwareExec s i
  · exact onlyGrows_raiseFault s f

theorem onlyGrows_startCommand {i : Instr} {s t : State} (h : startCommand i s = .next t) : OnlyGrows s t := by
  obtain ⟨-, rfl⟩ | ⟨f, rfl⟩ := startCommand_next_cases h
  · exact onlyGrows_acceptEffect s i
  · exact onlyGrows_raiseFault s f

theorem bitPeriods_seq (n : Nat) : (bitPeriods n s).seq = s.seq := by
  induction n generalizing s with
  | zero => rfl
  | succ n ih => rw [bitPeriods, ih, bitPeriod_eq]

theorem hardwareExec_seq (i : Instr) : (hardwareExec i s).seq = s.seq := by
  obtain rfl | hi | hi := command_cases i
  · rfl
  · obtain rfl | rfl | rfl | ⟨out, rfl⟩ := (isSpiCommand_iff i).1 hi
    · simp [hardwareExec, spiInitEffect]
    · simp [hardwareExec, spiBeginEffect]
    · simp [hardwareExec, spiEndEffect]
    · simp [hardwareExec, spiXferEffect, bitPeriods_seq]
  · exact (trkFrame_hardwareExec s hi).seq

theorem exec_seq {i : Instr} {s t : State} (h : exec i s = .next t) : t.seq = s.seq := by
  obtain ⟨-, rfl⟩ | ⟨f, rfl⟩ := exec_next_cases h
  · exact hardwareExec_seq s i
  · rfl

/-- From 0x04 on, a register reads from the tracker unit and the configuration alone (R48). -/
theorem readReg_of_trk {s t : State} (hcfg : t.cfg = s.cfg) (htrk : t.trk = s.trk) {a : Addr} (ha : 0x04 ≤ a.toNat) :
    readReg a t = readReg a s := by
  have hreg : regAt a ≠ .status ∧ regAt a ≠ .rxdata ∧ regAt a ≠ .pins := by
    revert a
    decide
  unfold readReg
  cases h : regAt a <;> simp_all [regWord]

/-- CMD, RXDATA and the configuration registers read from the SPI unit and the configuration alone (R48). -/
theorem readReg_of_spi {s t : State} (hcfg : t.cfg = s.cfg) (hspi : t.spi = s.spi) {a : Addr}
    (ha : a = 0x00#5 ∨ a = 0x02#5 ∨ a = 0x07#5 ∨ 0x18 ≤ a.toNat) : readReg a t = readReg a s := by
  have hreg : regAt a ≠ .status ∧ regAt a ≠ .pins ∧ regAt a ≠ .cur ∧ regAt a ≠ .prev ∧ regAt a ≠ .changes ∧
      ∀ c, regAt a ≠ .hist c ∧ regAt a ≠ .rend c := by
    revert a
    decide
  unfold readReg
  cases h : regAt a <;> simp_all [regWord]

/-- Settles O47: a fault leaves everything but `FAULT`, and the effect of a command has its unit's frame, from which the
registers of the other unit read as before. -/
theorem frameOfEveryCommand : Obligations.FrameOfEveryCommand := by
  intro i s t h
  have hgrows := onlyGrows_exec h
  refine ⟨hgrows.cfg, exec_seq h, hgrows.host, fun hi => ?_, fun hi => ?_⟩
  · obtain ⟨htrk, hsamples, hcount⟩ : t.trk = s.trk ∧ t.env.trk = s.env.trk ∧ t.env.trkCount = s.env.trkCount := by
      obtain ⟨-, rfl⟩ | ⟨f, rfl⟩ := exec_next_cases h
      · have hframe := spiFrame_hardwareExec s hi
        exact ⟨hframe.trk, hframe.samples, hframe.sampleCount⟩
      · exact ⟨rfl, rfl, rfl⟩
    exact ⟨htrk, hsamples, hcount, fun a ha => readReg_of_trk hgrows.cfg htrk ha⟩
  · obtain ⟨hspi, hlevels, hcount⟩ : t.spi = s.spi ∧ t.env.miso = s.env.miso ∧ t.env.misoCount = s.env.misoCount := by
      obtain ⟨-, rfl⟩ | ⟨f, rfl⟩ := exec_next_cases h
      · have hframe := trkFrame_hardwareExec s hi
        exact ⟨hframe.spi, hframe.levels, hframe.levelCount⟩
      · exact ⟨rfl, rfl, rfl⟩
    exact ⟨hspi, hlevels, hcount, fun a ha => readReg_of_spi hgrows.cfg hspi ha⟩

/-- What a step does but a reset, when its commands only let the sticky fields grow. -/
theorem hostStep_sticky {run : Instr → State → Answer}
    (hrun : ∀ {i s t}, run i s = .next t → OnlyGrows s t) {s t : State} (h : hostStep run s = .next t) :
    t.cfg = s.cfg ∧ ((∀ rest, s.host.queue ≠ .reset :: rest) →
      (s.spi.spiRdy = true → t.spi.spiRdy = true) ∧ (s.trk.trkRun = true → t.trk.trkRun = true) ∧
      (s.spi.rxValid = true → t.spi.rxValid = true) ∧ (s.trk.rendValid = true → t.trk.rendValid = true) ∧
      s.trace <+: t.trace) := by
  obtain ⟨p, ⟨rfl, rest, hq⟩ | hcases⟩ := hostStep_block_cases h
  · exact ⟨rfl, fun hno => absurd hq (hno rest)⟩
  · have hgrows : OnlyGrows { s with host := p } t := by
      obtain rfl | ⟨f, rfl⟩ | ⟨-, i, hi⟩ := hcases
      · exact (spiFrame_advance _).onlyGrows
      · exact onlyGrows_raiseFault _ f
      · exact hrun hi
    exact ⟨hgrows.cfg, fun _ => ⟨hgrows.rdy_kept, hgrows.run_kept, hgrows.rx_kept, hgrows.rendered_kept,
      hgrows.trace_grows⟩⟩

/-- Settles O49: in both machines a step is a reset, a cycle of the sequencer, a fault or a command, and none of the
last three clears a sticky field or shortens the trace. -/
theorem onlyResetClearsStickyState : Obligations.OnlyResetClearsStickyState := by
  rintro s t (h | h)
  · exact hostStep_sticky onlyGrows_exec h
  · exact hostStep_sticky onlyGrows_startCommand h

end Sys2Proof.Machine
end

section
/-! The invariant of the SPI unit and the sequencer (10_state.md R43, R34, R24, 41_spi_master.md R94), kept by every
command, every acceptance cycle and every cycle of a running command. -/

namespace Sys2Proof.Machine

variable {s t : State}

/-- The invariant of the SPI unit reads the configuration, the sequencer and the SPI unit only. -/
theorem State.SpiInv.congr (h : s.SpiInv) (hcfg : t.cfg = s.cfg) (hseq : t.seq = s.seq) (hcmd : t.curCmd = s.curCmd)
    (hspi : t.spi = s.spi) : t.SpiInv := by
  obtain ⟨cfg, seq, w, spi, trk, f, tr, env, ho⟩ := t
  subst hcfg hseq hcmd hspi
  exact { h with }

/-- While the sequencer is idle the invariant of the SPI unit does not read `CUR_CMD`. -/
theorem State.SpiInv.congr_idle (h : s.SpiInv) (hidle : s.seq = .idle) (hcfg : t.cfg = s.cfg) (hseq : t.seq = s.seq)
    (hspi : t.spi = s.spi) : t.SpiInv := by
  obtain ⟨cfg, seq, w, spi, trk, f, tr, env, ho⟩ := t
  subst hcfg hseq hspi
  exact { h with running_ok := fun hrun => by simp_all }

/-- The reset values keep the invariant, with any configuration. -/
theorem spiInv_resetWith (cfg : Cfg) (env : Env) (host : HostPort) : (State.resetWith cfg env host).SpiInv := by
  constructor <;> simp [State.resetWith, SpiUnit.reset, State.IdleOk]

/-! What the invariant says of an idle and of a running sequencer, by the command that runs. -/

theorem runningOk_of_spiBegin (hcmd : decode s.curCmd = .command .spiBegin) :
    s.RunningOk ↔ s.spi.spiRdy = true ∧ s.spi.session = false ∧ s.spi.csLat = s.cfg.csActive ∧
      s.spi.sckLat = false ∧ s.spi.holdCnt ≠ 0#16 := by
  simp [State.RunningOk, hcmd]

theorem runningOk_of_spiEnd (hcmd : decode s.curCmd = .command .spiEnd) :
    s.RunningOk ↔ s.spi.spiRdy = true ∧ s.spi.session = true ∧ s.spi.csLat = (!s.cfg.csActive) ∧
      s.spi.sckLat = false ∧ s.spi.holdCnt ≠ 0#16 := by
  simp [State.RunningOk, hcmd]

theorem runningOk_of_spiXfer {out : Byte} (hcmd : decode s.curCmd = .command (.spiXfer out)) :
    s.RunningOk ↔ s.spi.spiRdy = true ∧ s.spi.session = true ∧ s.spi.csLat = s.cfg.csActive ∧
      s.spi.sckLat = xferSck s.spi.phase (decide (s.spi.holdCnt ≠ 0#16)) := by
  simp [State.RunningOk, hcmd]

/-- Only the three commands with a hold ever run. -/
theorem State.RunningOk.command (h : s.RunningOk) :
    decode s.curCmd = .command .spiBegin ∨ decode s.curCmd = .command .spiEnd ∨
      ∃ out, decode s.curCmd = .command (.spiXfer out) := by
  unfold State.RunningOk at h
  split at h
  · exact .inl ‹_›
  · exact .inr (.inl ‹_›)
  · exact .inr (.inr ⟨_, ‹_›⟩)
  · exact h.elim

/-- The word of a command decodes to the command (R72). -/
theorem decode_encode (i : Instr) : decode (encode i) = .command i := by
  cases i
  case spiXfer out =>
    obtain ⟨hop, hrsv, himm⟩ := Laws.Fields.spiXfer out
    simp [decode, hop, hrsv, himm, opcodeOf, immOf]
  all_goals decide

/-- `P_SETTLE_CYCLES` of a well-formed configuration loads the hold counter with a value that is not 0 (R8). -/
theorem settleCycles_ne_zero {cfg : Cfg} (hwf : cfg.wf = true) : BitVec.ofNat 16 cfg.settleCycles ≠ 0#16 := by
  obtain ⟨-, -, -, -, ⟨hpos, hbound⟩, -⟩ := cfg.wf_iff.1 hwf
  intro hzero
  have htoNat := congrArg BitVec.toNat hzero
  simp at htoNat
  omega

/-! Whole commands, from an idle sequencer -/

theorem spiInv_spiInitEffect (h : s.SpiInv) (hidle : s.seq = .idle) : (spiInitEffect s).SpiInv := by
  obtain ⟨-, hsck, hhold⟩ := h.idle_ok hidle
  have hrx := h.rx_reset
  constructor <;> simp_all [spiInitEffect, State.IdleOk]

theorem spiInv_spiBeginEffect (h : s.SpiInv) (hidle : s.seq = .idle) (hrdy : s.spi.spiRdy = true) :
    (spiBeginEffect s).SpiInv := by
  obtain ⟨-, hsck, hhold⟩ := h.idle_ok hidle
  have hdirs := h.rdy_dirs hrdy
  have hmiso := h.miso_input
  have hrx := h.rx_reset
  constructor <;> simp_all [spiBeginEffect, State.IdleOk]

theorem spiInv_spiEndEffect (h : s.SpiInv) (hidle : s.seq = .idle) (hrdy : s.spi.spiRdy = true) :
    (spiEndEffect s).SpiInv := by
  obtain ⟨-, hsck, hhold⟩ := h.idle_ok hidle
  have hdirs := h.rdy_dirs hrdy
  have hmiso := h.miso_input
  have hrx := h.rx_reset
  constructor <;> simp_all [spiEndEffect, State.IdleOk]

/-- A bit period leaves the clock low and the hold counted down, as between commands. -/
theorem spiInv_bitPeriod (h : s.SpiInv) (hidle : s.seq = .idle) (n : BitVec 3) : (bitPeriod n s).SpiInv := by
  have hok := h.idle_ok hidle
  rw [bitPeriod_eq]
  exact { h with
    hold_bound := Nat.zero_le _
    idle_ok := fun _ => ⟨hok.1, rfl, rfl⟩
    running_ok := fun hrun => absurd (hidle.symm.trans hrun) (by decide) }

theorem spiInv_bitPeriods (n : Nat) (h : s.SpiInv) (hidle : s.seq = .idle) : (bitPeriods n s).SpiInv := by
  induction n generalizing s with
  | zero => exact h
  | succ n ih => exact ih (spiInv_bitPeriod h hidle _) (by rw [bitPeriod_eq]; exact hidle)

/-- The shift registers are no part of the invariant. -/
theorem spiInv_loadShift (h : s.SpiInv) (out : Byte) : (loadShift out s).SpiInv :=
  { h with }

theorem spiInv_commitRx (h : s.SpiInv) : (commitRx s).SpiInv :=
  { h with rx_reset := nofun }

theorem spiInv_spiXferEffect (h : s.SpiInv) (hidle : s.seq = .idle) (out : Byte) : (spiXferEffect out s).SpiInv := by
  have haccept : (acceptWord (encode (.spiXfer out)) s).SpiInv := h.congr_idle hidle rfl rfl rfl
  exact spiInv_commitRx (spiInv_bitPeriods 8 (spiInv_loadShift haccept out) hidle)

theorem spiInv_hardwareExec (h : s.SpiInv) (hidle : s.seq = .idle) {i : Instr} (hlegal : legalIn i s = true) :
    (hardwareExec i s).SpiInv := by
  obtain rfl | hi | hi := command_cases i
  · exact h
  · obtain rfl | rfl | rfl | ⟨out, rfl⟩ := (isSpiCommand_iff i).1 hi
    · exact spiInv_spiInitEffect h hidle
    · exact spiInv_spiBeginEffect h hidle (Bool.and_eq_true_iff.1 hlegal).1
    · exact spiInv_spiEndEffect h hidle (Bool.and_eq_true_iff.1 hlegal).1
    · exact spiInv_spiXferEffect h hidle out
  · have hframe := trkFrame_hardwareExec s hi
    exact h.congr_idle hidle hframe.cfg hframe.seq hframe.spi

/-! Acceptance cycles -/

theorem spiInv_spiBeginStart (hwf : s.cfg.wf = true) (h : s.SpiInv) (hidle : s.seq = .idle)
    (hrdy : s.spi.spiRdy = true) (hsession : s.spi.session = false) : (spiBeginStart s).SpiInv := by
  obtain ⟨-, hsck, -⟩ := h.idle_ok hidle
  have hdirs := h.rdy_dirs hrdy
  have hmiso := h.miso_input
  have hrx := h.rx_reset
  have hcmd : decode (spiBeginStart s).curCmd = .command .spiBegin := decode_encode _
  have hrunning : (spiBeginStart s).RunningOk := by
    rw [runningOk_of_spiBegin hcmd]
    simp [spiBeginStart, hrdy, hsession, hsck, settleCycles_ne_zero hwf]
  constructor <;> simp_all [spiBeginStart, Nat.mod_le]

theorem spiInv_spiEndStart (hwf : s.cfg.wf = true) (h : s.SpiInv) (hidle : s.seq = .idle)
    (hrdy : s.spi.spiRdy = true) (hsession : s.spi.session = true) : (spiEndStart s).SpiInv := by
  obtain ⟨-, hsck, -⟩ := h.idle_ok hidle
  have hdirs := h.rdy_dirs hrdy
  have hmiso := h.miso_input
  have hrx := h.rx_reset
  have hcmd : decode (spiEndStart s).curCmd = .command .spiEnd := decode_encode _
  have hrunning : (spiEndStart s).RunningOk := by
    rw [runningOk_of_spiEnd hcmd]
    simp [spiEndStart, hrdy, hsession, hsck, settleCycles_ne_zero hwf]
  constructor <;> simp_all [spiEndStart, Nat.mod_le]

theorem spiInv_spiXferStart (h : s.SpiInv) (hidle : s.seq = .idle) (hrdy : s.spi.spiRdy = true)
    (hsession : s.spi.session = true) (out : Byte) : (spiXferStart out s).SpiInv := by
  obtain ⟨hiff, hsck, -⟩ := h.idle_ok hidle
  have hcmd : decode (spiXferStart out s).curCmd = .command (.spiXfer out) := decode_encode _
  have hcs : s.spi.csLat = s.cfg.csActive := (hiff.1 hsession).1
  have hrunning : (spiXferStart out s).RunningOk := by
    rw [runningOk_of_spiXfer hcmd]
    simp [spiXferStart, hrdy, hsession, hcs, hsck, xferSck]
  exact { h with idle_ok := nofun, running_ok := fun _ => hrunning }

theorem spiInv_acceptEffect (hwf : s.cfg.wf = true) (h : s.SpiInv) (hidle : s.seq = .idle) {i : Instr}
    (hlegal : legalIn i s = true) : (acceptEffect i s).SpiInv := by
  obtain rfl | hi | hi := command_cases i
  · exact h.congr_idle hidle rfl rfl rfl
  · obtain rfl | rfl | rfl | ⟨out, rfl⟩ := (isSpiCommand_iff i).1 hi
    · exact spiInv_spiInitEffect h hidle
    · obtain ⟨hrdy, hsession⟩ := Bool.and_eq_true_iff.1 hlegal
      exact spiInv_spiBeginStart hwf h hidle hrdy (by simpa using hsession)
    · obtain ⟨hrdy, hsession⟩ := Bool.and_eq_true_iff.1 hlegal
      exact spiInv_spiEndStart hwf h hidle hrdy hsession
    · obtain ⟨hrdy, hsession⟩ := Bool.and_eq_true_iff.1 hlegal
      exact spiInv_spiXferStart h hidle hrdy hsession out
  · exact acceptEffect_of_trk s hi ▸ spiInv_hardwareExec h hidle hlegal

/-! Cycles of a running command -/

/-- The hold counter is replaced. -/
def setHoldCnt (n : BitVec 16) (s : State) : State := { s with spi := { s.spi with holdCnt := n } }

theorem countHold_eq (done : State → State) (s : State) : countHold done s =
    if s.spi.holdCnt.toNat ≤ 1 then done (setHoldCnt 0#16 s) else setHoldCnt (s.spi.holdCnt - 1#16) s := rfl

theorem State.SpiInv.holdCnt_of_idle (h : s.SpiInv) (hidle : s.seq = .idle) : s.spi.holdCnt = 0#16 := by
  obtain ⟨-, -, hcnt⟩ := h.idle_ok hidle
  exact hcnt

/-- The facts of a running command read of the hold counter only whether it is 0. -/
theorem runningOk_setHoldCnt {n : BitVec 16} (hok : s.RunningOk) (hcnt : s.spi.holdCnt ≠ 0#16) (hn : n ≠ 0#16) :
    (setHoldCnt n s).RunningOk := by
  obtain hcmd | hcmd | ⟨out, hcmd⟩ := hok.command
  · obtain ⟨hrdy, hsession, hcs, hsck, -⟩ := (runningOk_of_spiBegin hcmd).1 hok
    exact (runningOk_of_spiBegin (s := setHoldCnt n s) hcmd).2 ⟨hrdy, hsession, hcs, hsck, hn⟩
  · obtain ⟨hrdy, hsession, hcs, hsck, -⟩ := (runningOk_of_spiEnd hcmd).1 hok
    exact (runningOk_of_spiEnd (s := setHoldCnt n s) hcmd).2 ⟨hrdy, hsession, hcs, hsck, hn⟩
  · obtain ⟨hrdy, hsession, hcs, hsck⟩ := (runningOk_of_spiXfer hcmd).1 hok
    exact (runningOk_of_spiXfer (s := setHoldCnt n s) hcmd).2
      ⟨hrdy, hsession, hcs, by simpa [setHoldCnt, hcnt, hn] using hsck⟩

/-- A cycle that only counts the hold down keeps the invariant: the counter does not reach 0. -/
theorem spiInv_countDown (h : s.SpiInv) (hcnt : 1 < s.spi.holdCnt.toNat) :
    (setHoldCnt (s.spi.holdCnt - 1#16) s).SpiInv := by
  have hzero : s.spi.holdCnt ≠ 0#16 := fun hz => by simp [hz] at hcnt
  have hdec : (s.spi.holdCnt - 1#16).toNat = s.spi.holdCnt.toNat - 1 := by bv_omega
  have hne : s.spi.holdCnt - 1#16 ≠ 0#16 := by bv_omega
  exact { h with
    hold_bound := hdec.trans_le ((Nat.sub_le _ _).trans h.hold_bound)
    idle_ok := fun hidle => absurd (h.holdCnt_of_idle hidle) hzero
    running_ok := fun hrun => runningOk_setHoldCnt (h.running_ok hrun) hzero hne }

/-- A cycle of a hold keeps the invariant when the end of the hold does. -/
theorem spiInv_countHold {done : State → State} (h : s.SpiInv) (hdone : (done (setHoldCnt 0#16 s)).SpiInv) :
    (countHold done s).SpiInv := by
  rw [countHold_eq]
  split
  case isTrue => exact hdone
  case isFalse hcnt => exact spiInv_countDown h (Nat.lt_of_not_le hcnt)

/-- `SPI_BEGIN` commits: the session starts with chip select active. -/
theorem spiInv_beginDone (h : s.SpiInv) (hrun : s.seq = .run) (hcmd : decode s.curCmd = .command .spiBegin) :
    (toIdle (setSession true (setHoldCnt 0#16 s))).SpiInv := by
  obtain ⟨hrdy, -, hcs, hsck, -⟩ := (runningOk_of_spiBegin hcmd).1 (h.running_ok hrun)
  exact { h with
    session_rdy := fun _ => hrdy
    hold_bound := Nat.zero_le _
    idle_ok := fun _ => ⟨iff_of_true rfl ⟨hcs, hrdy⟩, hsck, rfl⟩
    running_ok := nofun }

/-- `SPI_END` commits: the session ends with chip select inactive. -/
theorem spiInv_endDone (h : s.SpiInv) (hrun : s.seq = .run) (hcmd : decode s.curCmd = .command .spiEnd) :
    (toIdle (setSession false (setHoldCnt 0#16 s))).SpiInv := by
  obtain ⟨-, -, hcs, hsck, -⟩ := (runningOk_of_spiEnd hcmd).1 (h.running_ok hrun)
  have hinactive : s.spi.csLat ≠ s.cfg.csActive := by simp [hcs]
  exact { h with
    session_rdy := nofun
    hold_bound := Nat.zero_le _
    idle_ok := fun _ => ⟨iff_of_false nofun fun hiff => hinactive hiff.1, hsck, rfl⟩
    running_ok := nofun }

/-- A running transfer may change its shift registers, its counters, its phase, data-out and the clock, as long as the
clock's level is that of the phase. -/
theorem spiInv_xferUpdate {out : Byte} (h : s.SpiInv) (hrun : s.seq = .run)
    (hcmd : decode s.curCmd = .command (.spiXfer out)) (tx rx : Byte) (n : BitVec 3) (mosi : Level) {p : Phase}
    {c : BitVec 16} {sck : Level} (hc : c.toNat ≤ s.cfg.settleCycles) (hlevel : sck = xferSck p (decide (c ≠ 0#16))) :
    State.SpiInv { s with spi := { s.spi with
      txSr := tx, rxSr := rx, bitCnt := n, phase := p, holdCnt := c, sckLat := sck, mosiLat := mosi } } := by
  obtain ⟨hrdy, hsession, hcs, -⟩ := (runningOk_of_spiXfer hcmd).1 (h.running_ok hrun)
  refine { h with hold_bound := hc, idle_ok := fun hidle => ?_, running_ok := fun _ => ?_ }
  · exact absurd (hrun.symm.trans hidle) (by decide)
  · refine (runningOk_of_spiXfer (out := out) ?_).2 ⟨hrdy, hsession, hcs, hlevel⟩
    exact hcmd

/-- The action cycle of a phase leaves the clock as the phase's hold has it. -/
theorem spiInv_phaseStart {out : Byte} (hwf : s.cfg.wf = true) (h : s.SpiInv) (hrun : s.seq = .run)
    (hcmd : decode s.curCmd = .command (.spiXfer out)) :
    (startHold (phaseAction s.spi.phase s)).SpiInv := by
  obtain ⟨-, -, -, hsck⟩ := (runningOk_of_spiXfer hcmd).1 (h.running_ok hrun)
  have hupdate := spiInv_xferUpdate h hrun hcmd
  have hbound : (BitVec.ofNat 16 s.cfg.settleCycles).toNat ≤ s.cfg.settleCycles := Nat.mod_le _ _
  have hcounting : decide (BitVec.ofNat 16 s.cfg.settleCycles ≠ 0#16) = true :=
    decide_eq_true (settleCycles_ne_zero hwf)
  cases hp : s.spi.phase
  case drive =>
    have hlow : s.spi.sckLat = false := by rw [hsck, hp]; rfl
    refine (hupdate s.spi.txSr s.spi.rxSr s.spi.bitCnt (txBit s) (p := .drive) hbound hlow).congr rfl rfl rfl ?_
    simp [phaseAction, hp]
  case high =>
    refine (hupdate s.spi.txSr s.spi.rxSr s.spi.bitCnt s.spi.mosiLat (p := .high) hbound hcounting.symm).congr
      rfl rfl rfl ?_
    simp [phaseAction, hp]
  case low =>
    refine (hupdate s.spi.txSr (shiftIn s.spi.rxSr (drawMiso s.env).1) s.spi.bitCnt s.spi.mosiLat (p := .low) hbound
      (sck := false) (by rw [hcounting]; rfl)).congr rfl rfl rfl ?_
    simp [phaseAction, hp]

/-- The transfer commits: the sequencer is idle with the clock low and the hold counted down. -/
theorem spiInv_xferDone {out : Byte} (h : s.SpiInv) (hrun : s.seq = .run)
    (hcmd : decode s.curCmd = .command (.spiXfer out)) (hsck : s.spi.sckLat = false) :
    (toIdle (commitRx (shiftOut (setHoldCnt 0#16 s)))).SpiInv := by
  obtain ⟨hrdy, hsession, hcs, -⟩ := (runningOk_of_spiXfer hcmd).1 (h.running_ok hrun)
  exact { h with
    rx_reset := nofun
    hold_bound := Nat.zero_le _
    idle_ok := fun _ => ⟨iff_of_true hsession ⟨hcs, hrdy⟩, hsck, rfl⟩
    running_ok := nofun }

/-- The end of a phase's hold starts the next phase, or commits the transfer. -/
theorem spiInv_phaseDone {out : Byte} (h : s.SpiInv) (hrun : s.seq = .run)
    (hcmd : decode s.curCmd = .command (.spiXfer out)) (hcnt : s.spi.holdCnt ≠ 0#16) :
    (phaseDone (setHoldCnt 0#16 s)).SpiInv := by
  obtain ⟨-, -, -, hsck⟩ := (runningOk_of_spiXfer hcmd).1 (h.running_ok hrun)
  rw [decide_eq_true hcnt] at hsck
  have hupdate (tx : Byte) (n : BitVec 3) (p : Phase) (hlevel : s.spi.sckLat = xferSck p false) :=
    spiInv_xferUpdate h hrun hcmd tx s.spi.rxSr n s.spi.mosiLat (c := 0#16) (Nat.zero_le _) hlevel
  have hphase : (setHoldCnt 0#16 s).spi.phase = s.spi.phase := rfl
  unfold phaseDone
  cases hp : s.spi.phase <;> rw [hp] at hphase hsck <;> rw [hphase]
  case drive => exact hupdate s.spi.txSr s.spi.bitCnt .high hsck
  case high => exact hupdate s.spi.txSr s.spi.bitCnt .low hsck
  case low =>
    dsimp only
    split
    case isTrue => exact spiInv_xferDone h hrun hcmd hsck
    case isFalse => exact hupdate (shiftIn s.spi.txSr false) (s.spi.bitCnt - 1#3) .drive hsck

theorem spiInv_xferCycle {out : Byte} (hwf : s.cfg.wf = true) (h : s.SpiInv) (hrun : s.seq = .run)
    (hcmd : decode s.curCmd = .command (.spiXfer out)) : (xferCycle s).SpiInv := by
  unfold xferCycle
  split
  case isTrue => exact spiInv_phaseStart hwf h hrun hcmd
  case isFalse hcnt => exact spiInv_countHold h (spiInv_phaseDone h hrun hcmd hcnt)

theorem spiInv_runCycle (hwf : s.cfg.wf = true) (h : s.SpiInv) (hrun : s.seq = .run) : (runCycle s).SpiInv := by
  unfold runCycle
  obtain hcmd | hcmd | ⟨out, hcmd⟩ := (h.running_ok hrun).command <;> rw [hcmd]
  · exact spiInv_countHold h (spiInv_beginDone h hrun hcmd)
  · exact spiInv_countHold h (spiInv_endDone h hrun hcmd)
  · exact spiInv_xferCycle hwf h hrun hcmd

theorem spiInv_advance (hwf : s.cfg.wf = true) (h : s.SpiInv) : (advance s).SpiInv := by
  cases hseq : s.seq
  case idle => rwa [advance_of_idle hseq]
  case run => simpa [advance, hseq] using spiInv_runCycle hwf h hseq

end Sys2Proof.Machine
end

section
/-! The invariant of the tracker unit (10_state.md R43, R23, R25, R34, 42_signal_tracker.md R101), kept by every command
of the unit. -/

namespace Sys2Proof.Machine

/-! The width of a history and the channels of a sample -/

theorem widthOf_of_getElem? {cfg : Cfg} {c : Nat} {ch : Chan} (hch : cfg.channels[c]? = some ch) :
    widthOf cfg c = ch.width := by
  simp [widthOf, hch]

theorem onesWord_lt (width : Nat) : (onesWord width).toNat < 2 ^ width := by
  have hpos : 0 < 2 ^ width := Nat.two_pow_pos width
  have hmod := Nat.mod_le (2 ^ width - 1) (2 ^ 16)
  rw [onesWord, BitVec.toNat_ofNat]
  omega

theorem push_lt (h : Word) (l : Level) (width : Nat) : (push h l width).toNat < 2 ^ width := by
  rw [push, BitVec.toNat_and]
  exact Nat.and_le_right.trans_lt (onesWord_lt width)

theorem seed_lt (l : Level) (width : Nat) : (seed l width).toNat < 2 ^ width := by
  cases l
  · exact Nat.two_pow_pos width
  · exact onesWord_lt width

/-- An updated file keeps the widths when every new value of a channel has the channel's. -/
theorem bankOk_updateBank {cfg : Cfg} {f : Fin 8 → Chan → Word → Word} {bank : Vector Word 8} (hbank : bankOk cfg bank)
    (hf : ∀ (c : Fin 8) ch, cfg.channels[c.val]? = some ch → (f c ch bank[c]).toNat < 2 ^ ch.width) :
    bankOk cfg (updateBank cfg f bank) := by
  intro c
  rw [updateBank_get]
  cases hch : cfg.channels[c.val]? with
  | none => exact hbank c
  | some ch => exact widthOf_of_getElem? hch ▸ hf c ch hch

theorem bankOk_replicate_zero (cfg : Cfg) : bankOk cfg (Vector.replicate 8 0#16) := by
  intro c
  simp

/-- The value has no bit of a channel that does not exist. -/
def Masked (cfg : Cfg) (v : Byte) : Prop := v &&& ~~~chMask cfg = 0#8

theorem masked_zero (cfg : Cfg) : Masked cfg 0#8 := BitVec.zero_and

theorem masked_and_chMask (cfg : Cfg) (v : Byte) : Masked cfg (v &&& chMask cfg) := by
  rw [Masked, BitVec.and_assoc, BitVec.and_not_self]
  exact BitVec.and_zero

/-- Only configured channels change (R97). -/
theorem masked_detect (cfg : Cfg) (previous current : Byte) : Masked cfg (detect cfg previous current) := by
  have hsplit (x y a b : Byte) : ((x &&& a) ||| (y &&& b)) &&& ~~~(a ||| b) = 0#8 := by
    ext n hn
    simp
    cases a[n] <;> cases b[n] <;> simp
  exact hsplit _ _ _ _

/-! The part of the invariant that does not read `TRK_RUN` or the mirror's outputs -/

/-- The registers of the tracker unit are masked and have their widths, and its sampled pins are inputs. -/
structure State.TrkRegsOk (s : State) : Prop where
  cur_masked : Masked s.cfg s.trk.cur
  prev_masked : Masked s.cfg s.trk.prev
  changes_masked : Masked s.cfg s.trk.changes
  chg_iff : s.trk.chg = decide (s.trk.changes ≠ 0#8)
  hist_ok : bankOk s.cfg s.trk.hist
  rend_ok : bankOk s.cfg s.trk.rend
  inputs : ∀ c : Fin 8, s.trk.inDir[c] = .input

/-- The mirror's pins are outputs with the newest recorded levels when there is a mirror, else inputs (R101). -/
structure State.MirrorOk (s : State) : Prop where
  dirs : s.trk.out0Dir = (if s.cfg.mirrorEn then .output else .input) ∧
    s.trk.out1Dir = (if s.cfg.mirrorEn then .output else .input)
  lats : s.cfg.mirrorEn = true →
    s.trk.out0Lat = newestBit s.cfg.mirrorSrc0 s ∧ s.trk.out1Lat = newestBit s.cfg.mirrorSrc1 s

variable {s t : State}

theorem State.TrkInv.regs (h : s.TrkInv) : s.TrkRegsOk :=
  ⟨h.cur_masked, h.prev_masked, h.changes_masked, h.chg_iff, h.hist_ok, h.rend_ok, h.inputs⟩

theorem State.TrkInv.mirror (h : s.TrkInv) (hrun : s.trk.trkRun = true) : s.MirrorOk :=
  ⟨by simpa [hrun] using h.mirror_dirs, h.mirror_lats hrun⟩

/-- A running tracker has the invariant when its registers and its mirror are right and a snapshot was taken. -/
theorem State.TrkRegsOk.trkInv (hregs : s.TrkRegsOk) (hrun : s.trk.trkRun = true) (hrend : s.trk.rendValid = true)
    (hmirror : s.MirrorOk) : s.TrkInv where
  cur_masked := hregs.cur_masked
  prev_masked := hregs.prev_masked
  changes_masked := hregs.changes_masked
  chg_iff := hregs.chg_iff
  hist_ok := hregs.hist_ok
  rend_ok := hregs.rend_ok
  not_running := fun hstop => absurd (hrun.symm.trans hstop) (by decide)
  running_rendered := fun _ => hrend
  inputs := hregs.inputs
  mirror_dirs := by simpa [hrun] using hmirror.dirs
  mirror_lats := fun _ => hmirror.lats

/-- The invariant of the tracker unit reads the configuration and the tracker unit only. -/
theorem State.TrkInv.congr (h : s.TrkInv) (hcfg : t.cfg = s.cfg) (htrk : t.trk = s.trk) : t.TrkInv := by
  obtain ⟨cfg, seq, w, spi, trk, f, tr, env, ho⟩ := t
  subst hcfg htrk
  exact { h with }

/-- The reset values keep the invariant, with any configuration. -/
theorem trkInv_resetWith (cfg : Cfg) (env : Env) (host : HostPort) : (State.resetWith cfg env host).TrkInv where
  cur_masked := masked_zero cfg
  prev_masked := masked_zero cfg
  changes_masked := masked_zero cfg
  chg_iff := rfl
  hist_ok := bankOk_replicate_zero cfg
  rend_ok := bankOk_replicate_zero cfg
  not_running := fun _ => ⟨rfl, rfl, rfl, rfl, rfl⟩
  running_rendered := nofun
  inputs := fun c => Vector.getElem_replicate c.isLt
  mirror_dirs := ⟨rfl, rfl⟩
  mirror_lats := nofun

/-! The register file under each operation -/

theorem trkRegsOk_takeSample (h : s.TrkRegsOk) : (takeSample s).TrkRegsOk :=
  { h with cur_masked := masked_and_chMask _ _, prev_masked := h.cur_masked }

theorem trkRegsOk_firstSample (h : s.TrkRegsOk) : (firstSample s).TrkRegsOk :=
  { h with cur_masked := masked_and_chMask _ _, prev_masked := masked_and_chMask _ _ }

theorem trkRegsOk_setChanges (h : s.TrkRegsOk) {m : Byte} (hm : Masked s.cfg m) : (setChanges m s).TrkRegsOk :=
  { h with changes_masked := hm, chg_iff := rfl }

theorem trkRegsOk_detectChanges (h : s.TrkRegsOk) : (detectChanges s).TrkRegsOk :=
  trkRegsOk_setChanges h (masked_detect _ _ _)

/-- A flagged channel's history takes its new level, every other history stays (R106). -/
theorem pushHistories_hist (s : State) : (pushHistories s).trk.hist = updateBank s.cfg (fun c ch h =>
    if s.trk.changes.getLsbD c.val then push h (newlevel ch.policy c.val s.trk.cur) ch.width else h) s.trk.hist := rfl

theorem seedHistories_hist (s : State) : (seedHistories s).trk.hist =
    updateBank s.cfg (fun c ch _ => seed (s.trk.cur.getLsbD c.val) ch.width) s.trk.hist := rfl

theorem renderSnapshot_rend (s : State) : (renderSnapshot s).trk.rend =
    updateBank s.cfg (fun c _ _ => s.trk.hist[c]) s.trk.rend := rfl

theorem trkRegsOk_pushHistories (h : s.TrkRegsOk) : (pushHistories s).TrkRegsOk := by
  have hhist : bankOk s.cfg (pushHistories s).trk.hist := by
    rw [pushHistories_hist]
    refine bankOk_updateBank h.hist_ok fun c ch hch => ?_
    split
    · exact push_lt _ _ _
    · exact widthOf_of_getElem? hch ▸ h.hist_ok c
  exact { h with hist_ok := hhist }

theorem trkRegsOk_seedHistories (h : s.TrkRegsOk) : (seedHistories s).TrkRegsOk := by
  have hhist : bankOk s.cfg (seedHistories s).trk.hist := by
    rw [seedHistories_hist]
    exact bankOk_updateBank h.hist_ok fun c ch hch => seed_lt _ _
  exact { h with hist_ok := hhist }

theorem trkRegsOk_renderSnapshot (h : s.TrkRegsOk) : (renderSnapshot s).TrkRegsOk := by
  have hrend : bankOk s.cfg (renderSnapshot s).trk.rend := by
    rw [renderSnapshot_rend]
    exact bankOk_updateBank h.rend_ok fun c ch hch => widthOf_of_getElem? hch ▸ h.hist_ok c
  exact { h with rend_ok := hrend }

theorem trkRegsOk_mirrorUpdate (h : s.TrkRegsOk) : (mirrorUpdate s).TrkRegsOk := by
  rw [mirrorUpdate_eq]
  split
  · exact { h with }
  · exact h

theorem trkRegsOk_configureMirror (h : s.TrkRegsOk) : (configureMirror s).TrkRegsOk := by
  have houtputs {u : State} (hu : u.TrkRegsOk) :
      (pinDir .trkOut1 .output (pinDir .trkOut0 .output u)).TrkRegsOk := { hu with }
  unfold configureMirror
  split
  · exact houtputs (trkRegsOk_mirrorUpdate h)
  · exact h

theorem trkRegsOk_pinDir_input (h : s.TrkRegsOk) (c : Fin 8) : (pinDir (.trkIn c) .input s).TrkRegsOk := by
  refine { h with inputs := fun d => ?_ }
  have hinput := h.inputs d
  simp only [Fin.getElem_fin] at hinput
  simp [Vector.getElem_set, hinput]

theorem trkRegsOk_configureInputs (h : s.TrkRegsOk) : (configureInputs s).TrkRegsOk := by
  unfold configureInputs
  generalize channelPins s.cfg = cs
  induction cs generalizing s with
  | nil => exact h
  | cons c cs ih => exact ih (trkRegsOk_pinDir_input h c)

/-- The state of `TRK_INIT` before it configures the mirror (R103). -/
def trkInitSnapshot (s : State) : State :=
  renderSnapshot (seedHistories (setChanges 0#8 (firstSample (configureInputs (acceptWord (encode .trkInit) s)))))

theorem trkInitEffect_eq (s : State) : trkInitEffect s = setTrkRun (configureMirror (trkInitSnapshot s)) := rfl

theorem trkRegsOk_trkInitSnapshot (h : s.TrkRegsOk) : (trkInitSnapshot s).TrkRegsOk := by
  have haccept : (acceptWord (encode .trkInit) s).TrkRegsOk := { h with }
  have hsample := trkRegsOk_firstSample (trkRegsOk_configureInputs haccept)
  exact trkRegsOk_renderSnapshot (trkRegsOk_seedHistories (trkRegsOk_setChanges hsample (masked_zero _)))

/-! The mirror under each operation -/

/-- The configuration of the inputs leaves the mirror's pins. -/
theorem configureInputs_mirrorDirs (s : State) :
    (configureInputs s).trk.out0Dir = s.trk.out0Dir ∧ (configureInputs s).trk.out1Dir = s.trk.out1Dir := by
  unfold configureInputs
  generalize channelPins s.cfg = cs
  induction cs generalizing s with
  | nil => exact ⟨rfl, rfl⟩
  | cons c cs ih => exact ih (pinDir (.trkIn c) .input s)

theorem trkInitSnapshot_mirrorDirs (s : State) :
    (trkInitSnapshot s).trk.out0Dir = s.trk.out0Dir ∧ (trkInitSnapshot s).trk.out1Dir = s.trk.out1Dir := by
  have hlater (u : State) : (renderSnapshot (seedHistories (setChanges 0#8 (firstSample u)))).trk.out0Dir =
      u.trk.out0Dir ∧ (renderSnapshot (seedHistories (setChanges 0#8 (firstSample u)))).trk.out1Dir =
      u.trk.out1Dir := ⟨rfl, rfl⟩
  obtain ⟨hlater0, hlater1⟩ := hlater (configureInputs (acceptWord (encode .trkInit) s))
  obtain ⟨hout0, hout1⟩ := configureInputs_mirrorDirs (acceptWord (encode .trkInit) s)
  exact ⟨hlater0.trans hout0, hlater1.trans hout1⟩

/-- The mirror update puts the newest recorded levels on the latches (R101). -/
theorem mirrorOk_mirrorUpdate (hdirs : s.trk.out0Dir = (if s.cfg.mirrorEn then .output else .input) ∧
    s.trk.out1Dir = (if s.cfg.mirrorEn then .output else .input)) : (mirrorUpdate s).MirrorOk := by
  rw [mirrorUpdate_eq]
  split
  · exact ⟨hdirs, fun _ => ⟨rfl, rfl⟩⟩
  case isFalse hoff => exact ⟨hdirs, fun hon => absurd hon hoff⟩

/-- `TRK_INIT` turns the mirror's pins, so far inputs, into outputs when there is a mirror (R103). -/
theorem mirrorOk_configureMirror (hdirs : s.trk.out0Dir = .input ∧ s.trk.out1Dir = .input) :
    (configureMirror s).MirrorOk := by
  unfold configureMirror
  split
  case isTrue hon =>
    rw [mirrorUpdate_eq, if_pos hon]
    exact ⟨by simp [hon], fun _ => ⟨rfl, rfl⟩⟩
  case isFalse hoff => exact ⟨by simp [hoff, hdirs], fun hon => absurd hon hoff⟩

/-! The commands -/

/-- The tracker starts to run with its registers and its mirror right and a snapshot taken. -/
theorem trkInv_setTrkRun (hregs : s.TrkRegsOk) (hrend : s.trk.rendValid = true) (hmirror : s.MirrorOk) :
    (setTrkRun s).TrkInv :=
  State.TrkRegsOk.trkInv { hregs with } rfl hrend { hmirror with }

/-- `TRK_INIT` establishes the facts of a running tracker. -/
theorem trkInv_trkInitEffect (h : s.TrkInv) (hstop : s.trk.trkRun = false) : (trkInitEffect s).TrkInv := by
  have hregs := trkRegsOk_configureMirror (trkRegsOk_trkInitSnapshot h.regs)
  have hrend := (trkFrame_configureMirror (trkInitSnapshot s)).rendered_kept rfl
  have hdirs : (trkInitSnapshot s).trk.out0Dir = .input ∧ (trkInitSnapshot s).trk.out1Dir = .input := by
    obtain ⟨hkept0, hkept1⟩ := trkInitSnapshot_mirrorDirs s
    simpa [hkept0, hkept1, hstop] using h.mirror_dirs
  rw [trkInitEffect_eq]
  exact trkInv_setTrkRun hregs hrend (mirrorOk_configureMirror hdirs)

theorem trkInv_takeSample (h : s.TrkInv) (hrun : s.trk.trkRun = true) : (takeSample s).TrkInv :=
  (trkRegsOk_takeSample h.regs).trkInv hrun (h.running_rendered hrun) { h.mirror hrun with }

theorem trkInv_detectChanges (h : s.TrkInv) (hrun : s.trk.trkRun = true) : (detectChanges s).TrkInv :=
  (trkRegsOk_detectChanges h.regs).trkInv hrun (h.running_rendered hrun) { h.mirror hrun with }

theorem trkInv_renderSnapshot (h : s.TrkInv) (hrun : s.trk.trkRun = true) : (renderSnapshot s).TrkInv :=
  (trkRegsOk_renderSnapshot h.regs).trkInv hrun rfl { h.mirror hrun with }

/-- The mirror lags behind the shifted histories until the mirror update. -/
theorem trkInv_applyChanges (h : s.TrkInv) (hrun : s.trk.trkRun = true) : (applyChanges s).TrkInv := by
  have hframe := trkFrame_applyChanges s
  exact (trkRegsOk_mirrorUpdate (trkRegsOk_pushHistories h.regs)).trkInv (hframe.run_kept hrun)
    (hframe.rendered_kept (h.running_rendered hrun)) (mirrorOk_mirrorUpdate (h.mirror hrun).dirs)

theorem trkInv_reactToChanges (h : s.TrkInv) (hrun : s.trk.trkRun = true) : (reactToChanges s).TrkInv := by
  unfold reactToChanges
  split
  · exact trkInv_renderSnapshot (trkInv_applyChanges h hrun) ((trkFrame_applyChanges s).run_kept hrun)
  · exact h

theorem trkInv_hardwareExec (h : s.TrkInv) {i : Instr} (hlegal : legalIn i s = true) : (hardwareExec i s).TrkInv := by
  have haccept (w : Word) : (acceptWord w s).TrkInv := h.congr rfl rfl
  obtain rfl | hi | hi := command_cases i
  · exact h
  · have hframe := spiFrame_hardwareExec s hi
    exact h.congr hframe.cfg hframe.trk
  · obtain rfl | rfl | rfl | rfl | rfl | rfl := (isTrkCommand_iff i).1 hi
    · exact trkInv_trkInitEffect h (by simpa [legalIn] using hlegal)
    · exact trkInv_takeSample (haccept _) hlegal
    · exact trkInv_detectChanges (haccept _) hlegal
    · exact trkInv_applyChanges (haccept _) hlegal
    · exact trkInv_renderSnapshot (haccept _) hlegal
    · exact trkInv_reactToChanges (trkInv_detectChanges (trkInv_takeSample (haccept _) hlegal) hlegal) hlegal

theorem trkInv_acceptEffect (h : s.TrkInv) {i : Instr} (hlegal : legalIn i s = true) : (acceptEffect i s).TrkInv := by
  obtain rfl | hi | hi := command_cases i
  · exact h.congr rfl rfl
  · have hframe := spiFrame_acceptEffect s hi
    exact h.congr hframe.cfg hframe.trk
  · exact acceptEffect_of_trk s hi ▸ trkInv_hardwareExec h hlegal

theorem trkInv_advance (h : s.TrkInv) : (advance s).TrkInv := h.congr (advance_cfg s) (advance_trk s)

end Sys2Proof.Machine
end

section
/-! The invariant of the machine over every step, every cycle and every run (10_state.md R43). -/

namespace Sys2Proof.Machine

variable {s t : State}

theorem inv_withHost (h : s.Inv) (p : HostPort) : State.Inv { s with host := p } :=
  ⟨h.config, h.spi.congr rfl rfl rfl rfl, h.trk.congr rfl rfl⟩

theorem inv_raiseFault (h : s.Inv) (f : Fault) : (raiseFault f s).Inv :=
  ⟨h.config, h.spi.congr rfl rfl rfl rfl, h.trk.congr rfl rfl⟩

/-- The reset state of every well-formed configuration has the invariant (R137). -/
theorem inv_resetWith {cfg : Cfg} (hwf : cfg.wf = true) (env : Env) (host : HostPort) :
    (State.resetWith cfg env host).Inv :=
  ⟨hwf, spiInv_resetWith cfg env host, trkInv_resetWith cfg env host⟩

theorem inv_advance (h : s.Inv) : (advance s).Inv :=
  ⟨(advance_cfg s).symm ▸ h.config, spiInv_advance h.config h.spi, trkInv_advance h.trk⟩

theorem inv_exec {i : Instr} (h : s.Inv) (hidle : s.seq = .idle) (hexec : exec i s = .next t) : t.Inv := by
  obtain ⟨hlegal, rfl⟩ | ⟨f, rfl⟩ := exec_next_cases hexec
  · exact ⟨(onlyGrows_hardwareExec s i).cfg.symm ▸ h.config, spiInv_hardwareExec h.spi hidle hlegal,
      trkInv_hardwareExec h.trk hlegal⟩
  · exact inv_raiseFault h f

theorem inv_startCommand {i : Instr} (h : s.Inv) (hidle : s.seq = .idle) (hstart : startCommand i s = .next t) :
    t.Inv := by
  obtain ⟨hlegal, rfl⟩ | ⟨f, rfl⟩ := startCommand_next_cases hstart
  · exact ⟨(onlyGrows_acceptEffect s i).cfg.symm ▸ h.config, spiInv_acceptEffect h.config h.spi hidle hlegal,
      trkInv_acceptEffect h.trk hlegal⟩
  · exact inv_raiseFault h f

/-- A step keeps the invariant when the commands it issues do. -/
theorem inv_hostStep {run : Instr → State → Answer}
    (hrun : ∀ i s t, s.Inv → s.seq = .idle → run i s = .next t → t.Inv) (h : s.Inv) (hstep : hostStep run s = .next t) :
    t.Inv :=
  hostStep_keeps (P := State.Inv) (fun _ p hs => inv_withHost hs p) (fun s hs => inv_resetWith hs.config s.env s.host)
    (fun f _ hs => inv_raiseFault hs f) (fun _ hs => inv_advance hs) hrun h hstep

/-- Settles O50: reset, fault entry, the sequencer's cycle and every legal command keep the invariant of both units. -/
theorem stepKeepsTheInvariant : Obligations.StepKeepsTheInvariant :=
  fun _ _ h hstep => inv_hostStep (fun _ _ _ hs hidle hexec => inv_exec hs hidle hexec) h hstep

/-- Settles O51: as O50, with the acceptance cycle of a command in the place of the whole command. -/
theorem cycleKeepsTheInvariant : Obligations.CycleKeepsTheInvariant :=
  fun _ _ h hcycle => inv_hostStep (fun _ _ _ hs hidle hstart => inv_startCommand hs hidle hstart) h hcycle

/-- Every state of a run has an invariant that holds at reset and that the machine's step keeps. -/
theorem Reachable.induct {next : State → Answer} {P : State → Prop}
    (hreset : ∀ cfg env host, cfg.wf = true → P (State.resetWith cfg env host))
    (hnext : ∀ s t, P s → next s = .next t → P t) (hs : Reachable next s) : P s := by
  induction hs with
  | reset cfg env host hwf => exact hreset cfg env host hwf
  | step _ hstep ih => exact hnext _ _ ih hstep

/-- In an idle state the invariant gives the facts of R43. -/
theorem State.Inv.betweenCommands (h : s.Inv) (hidle : s.seq = .idle) : s.BetweenCommands := by
  obtain ⟨hsession, hsck, -⟩ := h.spi.idle_ok hidle
  constructor
  case session_rdy => exact h.spi.session_rdy
  case rdy_dirs =>
    intro hrdy
    obtain ⟨hcs, hclock, hmosi⟩ := h.spi.rdy_dirs hrdy
    exact ⟨hcs, hclock, hmosi, h.spi.miso_input⟩
  case session_iff => exact hsession
  case sck_low => exact hsck
  case cur_masked => exact h.trk.cur_masked
  case prev_masked => exact h.trk.prev_masked
  case changes_masked => exact h.trk.changes_masked
  case hist_bound => exact fun c _ => h.trk.hist_ok c
  case not_running => exact h.trk.not_running

/-- Settles O52: reset has the invariant and both machines keep it, so every state of a run has it. -/
theorem factsBetweenCommandsOfEveryRun : Obligations.FactsBetweenCommandsOfEveryRun := by
  intro s hreach hidle _
  have hreset (cfg : Cfg) (env : Env) (host : HostPort) (hwf : cfg.wf = true) := inv_resetWith hwf env host
  have hinv : s.Inv := by
    obtain hs | hs := hreach
    · exact hs.induct hreset stepKeepsTheInvariant
    · exact hs.induct hreset cycleKeepsTheInvariant
  exact hinv.betweenCommands hidle

end Sys2Proof.Machine
end

section
/-! The registers as the host reads them (10_state.md R18, R27, R33) and the wires (R35). -/

namespace Sys2Proof.Machine

/-! A field of a word -/

theorem fieldBit_bit (v : Bool) {k : Nat} (hk : k < 16) (n : Nat) :
    (fieldBit v k).getLsbD n = (v && decide (n = k)) := by
  cases v
  · simp [fieldBit]
  · by_cases hn : n = k
    · subst hn
      simp [fieldBit, hk]
    · simp [fieldBit, BitVec.getLsbD_shiftLeft, BitVec.getLsbD_one, hn]
      omega

/-- A one-bit field is the number 0 or 1 at its place. -/
theorem fieldBit_eq_fieldNat (v : Bool) (n : Nat) : fieldBit v n = fieldNat v.toNat n := by
  cases v <;> simp [fieldBit, fieldNat]

/-- A byte placed in a word is the number it stands for at that place. -/
theorem setWidth_shiftLeft_eq_fieldNat (v : Byte) (n : Nat) : v.setWidth 16 <<< n = fieldNat v.toNat n := by
  rw [fieldNat, BitVec.ofNat_toNat]

theorem fieldNat_toNat {v n : Nat} (hv : v * 2 ^ n < 65536) : (fieldNat v n).toNat = v * 2 ^ n := by
  have hsmall : v < 65536 := (Nat.le_mul_of_pos_right v (Nat.two_pow_pos n)).trans_lt hv
  rw [fieldNat, BitVec.toNat_shiftLeft, BitVec.toNat_ofNat, Nat.mod_eq_of_lt hsmall, Nat.shiftLeft_eq,
    Nat.mod_eq_of_lt hv]

/-- A field above the bits of a word adds its value at its place. -/
theorem toNat_or_fieldNat {w : Word} {x v n : Nat} (hw : w.toNat = x) (hx : x < 2 ^ n) (hv : v * 2 ^ n < 65536) :
    (w ||| fieldNat v n).toNat = x + v * 2 ^ n := by
  rw [BitVec.toNat_or, fieldNat_toNat hv, hw, ← Nat.shiftLeft_eq, Nat.or_comm, ← Nat.shiftLeft_add_eq_or_of_lt hx,
    Nat.add_comm]

/-- Settles O12: each field of the STATUS word is one bit at its place. -/
theorem statusLayout : Obligations.StatusLayout := by
  intro s n
  show (statusWord s).getLsbD n = _
  simp only [statusWord, BitVec.getLsbD_or, fieldBit_bit, busy, Nat.reduceLT]
  split_ifs <;> simp_all

/-- Settles O13: each latch and output enable of the PINS word is one bit at its place. -/
theorem pinsLayout : Obligations.PinsLayout := by
  intro s n
  show (pinsWord s).getLsbD n = _
  simp only [pinsWord, BitVec.getLsbD_or, fieldBit_bit, spiOe, trkOe, Nat.reduceLT]
  split_ifs <;> simp_all [Bool.and_assoc]

/-- A width fits its byte of a WIDTH register; that of a channel that does not exist reads 0 (R8, R33). -/
theorem widthOf_le {cfg : Cfg} (hwf : cfg.wf = true) (c : Nat) : widthOf cfg c ≤ 16 := by
  obtain ⟨-, hwidths, -⟩ := cfg.wf_iff.1 hwf
  cases hch : cfg.channels[c]? with
  | none => simp [widthOf, hch]
  | some ch => exact widthOf_of_getElem? hch ▸ (hwidths ch (List.mem_of_getElem? hch)).2

theorem cfg0Word_toNat {cfg : Cfg} (hwf : cfg.wf = true) : (cfg0Word cfg).toNat =
    cfg.nch + 16 * cfg.csActive.toNat + 32 * cfg.mirrorEn.toNat + 64 * cfg.syncStages + 256 * (anyMask cfg).toNat := by
  obtain ⟨⟨-, hnch⟩, -, -, -, -, hsync⟩ := cfg.wf_iff.1 hwf
  have hnch : cfg.nch ≤ 8 := hnch
  have hcs := cfg.csActive.toNat_le
  have hmirror := cfg.mirrorEn.toNat_le
  have hmask : (anyMask cfg).toNat < 256 := (anyMask cfg).isLt
  have hbits3 := fieldNat_toNat (v := cfg.nch) (n := 0) (by omega)
  have hbits4 := toNat_or_fieldNat (v := cfg.csActive.toNat) (n := 4) hbits3 (by omega) (by omega)
  have hbits5 := toNat_or_fieldNat (v := cfg.mirrorEn.toNat) (n := 5) hbits4 (by omega) (by omega)
  have hbits7 := toNat_or_fieldNat (v := cfg.syncStages) (n := 6) hbits5 (by omega) (by omega)
  have hbits15 := toNat_or_fieldNat (v := (anyMask cfg).toNat) (n := 8) hbits7 (by omega) (by omega)
  rw [cfg0Word, fieldBit_eq_fieldNat, fieldBit_eq_fieldNat, setWidth_shiftLeft_eq_fieldNat, hbits15]
  omega

theorem cfg1Word_toNat {cfg : Cfg} (hwf : cfg.wf = true) :
    (cfg1Word cfg).toNat = cfg.mirrorSrc0 + 16 * cfg.mirrorSrc1 := by
  obtain ⟨⟨-, hnch⟩, -, -, ⟨hsrc0, hsrc1⟩, -⟩ := cfg.wf_iff.1 hwf
  have hlow := fieldNat_toNat (v := cfg.mirrorSrc0) (n := 0) (by omega)
  rw [cfg1Word, toNat_or_fieldNat hlow (by omega) (by omega)]
  omega

theorem cfg2Word_toNat {cfg : Cfg} (hwf : cfg.wf = true) : (cfg2Word cfg).toNat = cfg.settleCycles := by
  obtain ⟨-, -, -, -, ⟨-, hsettle⟩, -⟩ := cfg.wf_iff.1 hwf
  rw [cfg2Word, fieldNat_toNat (by omega)]
  omega

theorem widthsWord_toNat {cfg : Cfg} (hwf : cfg.wf = true) (k : Nat) :
    (widthsWord cfg k).toNat = widthOf cfg (2 * k) + 256 * widthOf cfg (2 * k + 1) := by
  have heven := widthOf_le hwf (2 * k)
  have hodd := widthOf_le hwf (2 * k + 1)
  have hlow := fieldNat_toNat (v := widthOf cfg (2 * k)) (n := 0) (by omega)
  rw [widthsWord, toNat_or_fieldNat hlow (by omega) (by omega)]
  omega

/-- The WIDTH registers stand from 0x1A on (R48). -/
theorem regAt_widths (k : Fin 4) : regAt (BitVec.ofNat 5 (0x1A + k.val)) = .widths k := by
  revert k
  decide

/-- Settles O15: the fields of each configuration word lie side by side, so the word is their sum, and the masks are
read off the channels. -/
theorem configurationRegisters : Obligations.ConfigurationRegisters := by
  intro s hwf
  refine ⟨cfg0Word_toNat hwf, cfg1Word_toNat hwf, cfg2Word_toNat hwf, fun k => ?_, fun c => ⟨?_, ?_, ?_⟩⟩
  · rw [readReg, regAt_widths]
    exact widthsWord_toNat hwf k.val
  · exact policyMask_bit .any s.cfg.channels c.val c.isLt
  · exact policyMask_bit .fall s.cfg.channels c.val c.isLt
  · exact chMask_bit s.cfg c.val c.isLt

/-! The wires -/

@[simp] theorem pinDirOf_pinWrite (p q : Pin) (v : Level) (s : State) : pinDirOf q (pinWrite p v s) = pinDirOf q s := by
  cases p <;> cases q <;> rfl

/-- A write sets the latch of its pin, where the pin has one (R34). -/
theorem pinLatOf_pinWrite_same {p : Pin} {s : State} (hlat : pinLatOf p s ≠ none) (v : Level) :
    pinLatOf p (pinWrite p v s) = some v := by
  cases p
  case spiMiso | trkIn => exact absurd rfl hlat
  all_goals rfl

/-- A write leaves the latch of every other pin. -/
theorem pinLatOf_pinWrite_of_ne {p q : Pin} (hne : q ≠ p) (v : Level) (s : State) :
    pinLatOf q (pinWrite p v s) = pinLatOf q s := by
  cases p <;> cases q <;> simp_all [pinLatOf, pinWrite, setLat]

theorem wireLevel_of_output {p : Pin} {s : State} (hdir : pinDirOf p s = .output) : wireLevel p s = pinLatOf p s := by
  simp [wireLevel, hdir]

theorem wireLevel_of_input {p : Pin} {s : State} (hdir : pinDirOf p s = .input) : wireLevel p s = none := by
  simp [wireLevel, hdir]

/-- Settles O17: a write changes no direction and no latch but its own pin's, and an input's latch drives no wire. -/
theorem wireLevelFollowsLatchAndDirection : Obligations.WireLevelFollowsLatchAndDirection := by
  intro s p
  refine ⟨wireLevel_of_output, wireLevel_of_input, fun v hlat => pinLatOf_pinWrite_same hlat v, fun v hin q => ?_⟩
  by_cases hq : q = p
  · rw [hq, wireLevel_of_input hin, wireLevel_of_input ((pinDirOf_pinWrite p p v s).trans hin)]
  · simp [wireLevel, pinLatOf_pinWrite_of_ne hq]

/-- Settles O16: the words of R33 evaluated at the default configuration. -/
theorem defaultConfigurationRegisterValues : Obligations.DefaultConfigurationRegisterValues := by
  unfold Obligations.DefaultConfigurationRegisterValues
  decide

end Sys2Proof.Machine
end

section
/-! The host port (20_memory.md R44, R49, R54 to R57): what a read, a write to CMD and any other write do, in the
machine of whole commands and in the machine of clock cycles. -/

namespace Sys2Proof.Machine

variable {s : State} {rest : List HostAccess} (run : Instr → State → Answer)

/-- A read completes in the cycle in which it is presented, and only the host's side takes note of it (R54, R57). -/
theorem hostStep_of_read {a : Addr} (hwf : s.cfg.wf = true) (hfault : s.fault = none)
    (hqueue : s.host.queue = .read a :: rest) :
    hostStep run s = .next { advance s with host := ⟨rest, s.host.readLog ++ [⟨a, readReg a s⟩]⟩ } := by
  simp only [hostStep, hwf, hfault, hqueue, hostAccess]
  exact congrArg Host.Outcome.next (advance_withHost s _)

/-- A write to any address but CMD completes at once and only leaves the host's pending accesses (R44, R49). -/
theorem hostStep_of_other_write {a : Addr} {v : Word} (ha : a ≠ 0#5) (hwf : s.cfg.wf = true) (hfault : s.fault = none)
    (hqueue : s.host.queue = .write a v :: rest) :
    hostStep run s = .next { advance s with host := { s.host with queue := rest } } := by
  simp only [hostStep, hwf, hfault, hqueue, hostAccess, busReady, ha]
  exact congrArg Host.Outcome.next (advance_withHost s _)

/-- A CMD write while `BUSY` = 0 completes and issues its word (R55). -/
theorem hostStep_of_cmd_write_idle {w : Word} (hwf : s.cfg.wf = true) (hfault : s.fault = none) (hidle : s.seq = .idle)
    (hqueue : s.host.queue = .write 0#5 w :: rest) : hostStep run s = issueWord run w (setQueue rest s) := by
  simp [hostStep, hwf, hfault, hqueue, hostAccess, busReady, busy, hidle]

/-- A CMD write while `BUSY` = 1 stays pending, and the running command goes on (R56). -/
theorem hostStep_of_cmd_write_busy {w : Word} (hwf : s.cfg.wf = true) (hfault : s.fault = none) (hrun : s.seq = .run)
    (hqueue : s.host.queue = .write 0#5 w :: rest) : hostStep run s = .next (advance s) := by
  simp [hostStep, hwf, hfault, hqueue, hostAccess, busReady, busy, hrun]

/-- A word that decodes to a command goes to the command (R55). -/
theorem issueWord_of_command {w : Word} {i : Instr} (hdecode : decode w = .command i) :
    issueWord run w s = run i s := by
  simp [issueWord, hdecode]

/-- A table word that holds an instruction decodes to it as a command word (R67). -/
theorem decode_of_decodeTableWord {n w : Nat} {i : Instr} (h : decodeTableWord n w = some i) :
    decode (BitVec.ofNat 16 w) = .command i := by
  unfold decodeTableWord at h
  split at h
  case isFalse => cases h
  case isTrue =>
    cases hd : decode (BitVec.ofNat 16 w) with
    | command j =>
      rw [hd] at h
      exact congrArg Decoded.command (Option.some.inj h)
    | illegal why =>
      rw [hd] at h
      cases h

/-- Settles O5: an idle machine completes the CMD write, and the issue of its word is the command. -/
theorem stepRunsTheDecodedCommand : Obligations.StepRunsTheDecodedCommand := by
  intro s w rest i hwf hfault hidle hqueue hdecode
  calc step s = issueWord exec w (setQueue rest s) := hostStep_of_cmd_write_idle exec hwf hfault hidle hqueue
    _ = exec i (setQueue rest s) := issueWord_of_command exec hdecode

/-- Settles O6: the placed word is a CMD write as in O5, and once it is taken the accesses are those of before. -/
theorem placedWordRunsNext : Obligations.PlacedWordRunsNext :=
  fun s n w i hwf hfault hidle htable =>
    stepRunsTheDecodedCommand (s.withFetchWord n w) (BitVec.ofNat 16 w) s.host.queue i hwf hfault hidle rfl
      (decode_of_decodeTableWord htable)

/-- Settles O7: a read is a cycle of the sequencer but for the host's side, and an idle sequencer keeps the state. -/
theorem hostReadHasNoSideEffect : Obligations.HostReadHasNoSideEffect := by
  intro s a rest hwf hfault hqueue
  have hread (run : Instr → State → Answer) := hostStep_of_read run hwf hfault hqueue
  refine ⟨fun hidle => ?_, fun _ => ⟨hread exec, hread startCommand⟩⟩
  rw [advance_of_idle hidle] at hread
  exact ⟨hread exec, hread startCommand⟩

/-- Settles O10: `BUS_READY` is 0 for the write, and a cycle of the sequencer leaves the host's side. -/
theorem cmdWriteWhileBusyIsHeld : Obligations.CmdWriteWhileBusyIsHeld := by
  intro s w rest hwf hfault hrun hqueue
  have hheld (run : Instr → State → Answer) := hostStep_of_cmd_write_busy run hwf hfault hrun hqueue
  exact ⟨by simp [busReady, busy, hrun], hheld exec, hheld startCommand, advance_host s⟩

/-! The register map -/

/-- The history file stands from 0x08 on (R48). -/
theorem regAt_hist (c : Fin 8) : regAt (BitVec.ofNat 5 (0x08 + c.val)) = .hist c := by
  revert c
  decide

/-- The render file stands from 0x10 on (R48). -/
theorem regAt_rend (c : Fin 8) : regAt (BitVec.ofNat 5 (0x10 + c.val)) = .rend c := by
  revert c
  decide

theorem readReg_hist (c : Fin 8) (s : State) :
    readReg (BitVec.ofNat 5 (0x08 + c.val)) s = bankRead s.cfg s.trk.hist c := by
  rw [readReg, regAt_hist, regWord]

theorem readReg_rend (c : Fin 8) (s : State) :
    readReg (BitVec.ofNat 5 (0x10 + c.val)) s = bankRead s.cfg s.trk.rend c := by
  rw [readReg, regAt_rend, regWord]

/-- The slot of a channel that exists reads as its register (R31, R32). -/
theorem bankRead_of_lt {cfg : Cfg} {c : Fin 8} (hc : c.val < cfg.nch) (bank : Vector Word 8) :
    bankRead cfg bank c = bank[c] := if_pos hc

/-- The slot of a channel that does not exist reads 0 (R49). -/
theorem bankRead_of_ge {cfg : Cfg} {c : Fin 8} (hc : cfg.nch ≤ c.val) (bank : Vector Word 8) :
    bankRead cfg bank c = 0#16 := if_neg (Nat.not_lt_of_le hc)

/-- Settles O14: each address of the map stands for its register, and a byte keeps its value in a word. -/
theorem dataRegisterLayout : Obligations.DataRegisterLayout := by
  intro s
  have hbyte (v : Byte) : (v.setWidth 16).toNat = v.toNat := BitVec.toNat_setWidth_of_le (by decide)
  refine ⟨rfl, hbyte _, hbyte _, hbyte _, hbyte _, fun c hc => ⟨?_, ?_⟩⟩
  · rw [readReg_hist, bankRead_of_lt hc]
  · rw [readReg_rend, bankRead_of_lt hc]

/-- Settles O8: the reserved addresses and the slots above `P_NCH` read 0, and a write to any address but CMD is a cycle
of the sequencer but for the host's side. -/
theorem reservedReadsZeroAndOtherWritesAreIgnored : Obligations.ReservedReadsZeroAndOtherWritesAreIgnored := by
  intro s
  refine ⟨rfl, rfl, fun c hc => ⟨?_, ?_⟩, fun a v rest ha hwf hfault hqueue => ?_⟩
  · rw [readReg_hist, bankRead_of_ge hc]
  · rw [readReg_rend, bankRead_of_ge hc]
  · have hwrite (run : Instr → State → Answer) := hostStep_of_other_write run ha hwf hfault hqueue
    refine ⟨by simp [busReady, ha], fun hidle => ?_, fun _ => ⟨hwrite exec, hwrite startCommand⟩⟩
    rw [advance_of_idle hidle] at hwrite
    exact ⟨hwrite exec, hwrite startCommand⟩

end Sys2Proof.Machine
end

section
/-! The units share no state (20_memory.md R66): the commands of one unit commute with the replacement of the other
unit's whole state. -/

namespace Sys2Proof.Machine

/-- The state of the tracker unit is replaced whole. -/
def setTrk (k : TrkUnit) (s : State) : State := { s with trk := k }

/-- The state of the SPI unit is replaced whole. -/
def setSpi (k : SpiUnit) (s : State) : State := { s with spi := k }

/-- A choice commutes with an update that its condition does not see when both its branches do. -/
theorem commute_ite {c : State → Prop} [DecidablePred c] {f g upd : State → State} (hc : ∀ s, c (upd s) ↔ c s)
    (hf : Function.Commute f upd) (hg : Function.Commute g upd) :
    Function.Commute (fun s => if c s then f s else g s) upd := by
  intro s
  by_cases h : c s
  · simpa only [if_pos h, if_pos ((hc s).2 h)] using hf s
  · simpa only [if_neg h, if_neg (mt (hc s).1 h)] using hg s

/-- A command whose checks do not see an update, and whose effect commutes with it, takes it to its answer. -/
theorem exec_of_commute {i : Instr} {upd : State → State}
    (hcheck : ∀ s, contractFault i (upd s) = contractFault i s)
    (heffect : Function.Commute (hardwareExec i) upd) (hraise : ∀ f, Function.Commute (raiseFault f) upd)
    {s t : State} (h : exec i s = .next t) : exec i (upd s) = .next (upd t) := by
  rw [exec_eq_faultOr, faultOr_next_iff] at h ⊢
  rw [hcheck]
  obtain ⟨hnone, rfl⟩ | ⟨f, hsome, rfl⟩ := h
  · exact .inl ⟨hnone, (heffect s).symm⟩
  · exact .inr ⟨f, hsome, (hraise f s).symm⟩

/-! The SPI unit's commands -/

section
variable (k : TrkUnit)

theorem bitPeriod_commute_setTrk (n : BitVec 3) : Function.Commute (bitPeriod n) (setTrk k) :=
  fun _ => rfl

theorem bitPeriods_commute_setTrk (n : Nat) : Function.Commute (bitPeriods n) (setTrk k) := by
  induction n with
  | zero => exact fun _ => rfl
  | succ n ih => exact ih.comp_left (bitPeriod_commute_setTrk k _)

theorem spiXferEffect_commute_setTrk (out : Byte) : Function.Commute (spiXferEffect out) (setTrk k) := by
  have hcommit : Function.Commute commitRx (setTrk k) := fun _ => rfl
  have hload : Function.Commute (fun s => loadShift out (acceptWord (encode (.spiXfer out)) s)) (setTrk k) :=
    fun _ => rfl
  exact hcommit.comp_left ((bitPeriods_commute_setTrk k 8).comp_left hload)

theorem hardwareExec_commute_setTrk {i : Instr} (hi : IsSpiCommand i) :
    Function.Commute (hardwareExec i) (setTrk k) := by
  obtain rfl | rfl | rfl | ⟨out, rfl⟩ := (isSpiCommand_iff i).1 hi
  · exact fun _ => rfl
  · exact fun _ => rfl
  · exact fun _ => rfl
  · exact spiXferEffect_commute_setTrk k out

theorem contractFault_setTrk {i : Instr} (hi : IsSpiCommand i) (s : State) :
    contractFault i (setTrk k s) = contractFault i s := by
  obtain rfl | rfl | rfl | ⟨out, rfl⟩ := (isSpiCommand_iff i).1 hi <;> rfl

end

/-! The tracker unit's commands -/

section
variable (k : SpiUnit)

theorem acceptWord_commute_setSpi (w : Word) : Function.Commute (acceptWord w) (setSpi k) := fun _ => rfl

theorem takeSample_commute_setSpi : Function.Commute takeSample (setSpi k) := fun _ => rfl

theorem detectChanges_commute_setSpi : Function.Commute detectChanges (setSpi k) := fun _ => rfl

theorem renderSnapshot_commute_setSpi : Function.Commute renderSnapshot (setSpi k) := fun _ => rfl

theorem mirrorUpdate_commute_setSpi : Function.Commute mirrorUpdate (setSpi k) :=
  commute_ite (c := fun s => s.cfg.mirrorEn = true) (fun _ => .rfl) (fun _ => rfl) (fun _ => rfl)

theorem applyChanges_commute_setSpi : Function.Commute applyChanges (setSpi k) := by
  have hpush : Function.Commute pushHistories (setSpi k) := fun _ => rfl
  exact (mirrorUpdate_commute_setSpi k).comp_left hpush

theorem reactToChanges_commute_setSpi : Function.Commute reactToChanges (setSpi k) :=
  commute_ite (c := fun s => s.trk.changes ≠ 0x00#8) (fun _ => .rfl)
    ((renderSnapshot_commute_setSpi k).comp_left (applyChanges_commute_setSpi k)) (fun _ => rfl)

theorem configureInputs_commute_setSpi : Function.Commute configureInputs (setSpi k) := by
  intro s
  unfold configureInputs
  show (channelPins s.cfg).foldl _ (setSpi k s) = _
  generalize channelPins s.cfg = cs
  induction cs generalizing s with
  | nil => rfl
  | cons c cs ih => exact ih (pinDir (.trkIn c) .input s)

theorem configureMirror_commute_setSpi : Function.Commute configureMirror (setSpi k) := by
  have houtputs : Function.Commute (fun s => pinDir .trkOut1 .output (pinDir .trkOut0 .output s)) (setSpi k) :=
    fun _ => rfl
  exact commute_ite (c := fun s => s.cfg.mirrorEn = true) (fun _ => .rfl)
    (houtputs.comp_left (mirrorUpdate_commute_setSpi k)) (fun _ => rfl)

theorem trkInitEffect_commute_setSpi : Function.Commute trkInitEffect (setSpi k) := by
  have hrun : Function.Commute setTrkRun (setSpi k) := fun _ => rfl
  have hseed : Function.Commute (fun s => seedHistories (setChanges 0x00#8 (firstSample s))) (setSpi k) := fun _ => rfl
  exact hrun.comp_left <| (configureMirror_commute_setSpi k).comp_left <|
    (renderSnapshot_commute_setSpi k).comp_left <| hseed.comp_left <|
    (configureInputs_commute_setSpi k).comp_left (acceptWord_commute_setSpi k _)

theorem hardwareExec_commute_setSpi {i : Instr} (hi : IsTrkCommand i) :
    Function.Commute (hardwareExec i) (setSpi k) := by
  have haccept := acceptWord_commute_setSpi k (encode i)
  obtain rfl | rfl | rfl | rfl | rfl | rfl := (isTrkCommand_iff i).1 hi
  · exact trkInitEffect_commute_setSpi k
  · exact (takeSample_commute_setSpi k).comp_left haccept
  · exact (detectChanges_commute_setSpi k).comp_left haccept
  · exact (applyChanges_commute_setSpi k).comp_left haccept
  · exact (renderSnapshot_commute_setSpi k).comp_left haccept
  · exact (reactToChanges_commute_setSpi k).comp_left <| (detectChanges_commute_setSpi k).comp_left <|
      (takeSample_commute_setSpi k).comp_left haccept

theorem contractFault_setSpi {i : Instr} (hi : IsTrkCommand i) (s : State) :
    contractFault i (setSpi k s) = contractFault i s := by
  obtain rfl | rfl | rfl | rfl | rfl | rfl := (isTrkCommand_iff i).1 hi <;> rfl

end

/-- Settles O48: the checks of a command do not see the other unit, and its effect commutes with the replacement. -/
theorem unitsShareNoState : Obligations.UnitsShareNoState := by
  intro i s t h
  refine ⟨fun hi k => ?_, fun hi k => ?_⟩
  · exact exec_of_commute (contractFault_setTrk k hi) (hardwareExec_commute_setTrk k hi) (fun _ _ => rfl) h
  · exact exec_of_commute (contractFault_setSpi k hi) (hardwareExec_commute_setSpi k hi) (fun _ _ => rfl) h

end Sys2Proof.Machine
end

section
/-! A command before its commit (20_memory.md R57, 41_spi_master.md R94, 70_reset_and_hazards.md R150): how many
cycles a running command has left, and what the host reads in all but the last of them. -/

namespace Sys2Proof.Machine

variable {s t u : State}

/-! The cycles left -/

/-- The phases a running transfer has yet to begin: three for each bit it has yet to begin, and the rest of those of the
bit it is in (R84). -/
def phasesAfter (u : SpiUnit) : Nat :=
  3 * u.bitCnt.toNat + match u.phase with
    | .drive => 2
    | .high => 1
    | .low => 0

/-- The cycles left of the phase a running transfer is in: its action and its hold, or what the hold counter has
left (R94). -/
def phaseLeft (settle : Nat) (u : SpiUnit) : Nat := if u.holdCnt = 0#16 then 1 + settle else u.holdCnt.toNat

/-- The cycles a running command has left to its commit, the committing one counted (R94, R150). No command but the
three with a hold runs (log 14). -/
def cyclesLeft (s : State) : Nat :=
  match decode s.curCmd with
  | .command .spiBegin | .command .spiEnd => s.spi.holdCnt.toNat
  | .command (.spiXfer _) => phasesAfter s.spi * (1 + s.cfg.settleCycles) + phaseLeft s.cfg.settleCycles s.spi
  | _ => 1

theorem cyclesLeft_of_spiBegin (hcmd : decode s.curCmd = .command .spiBegin) : cyclesLeft s = s.spi.holdCnt.toNat := by
  simp [cyclesLeft, hcmd]

theorem cyclesLeft_of_spiEnd (hcmd : decode s.curCmd = .command .spiEnd) : cyclesLeft s = s.spi.holdCnt.toNat := by
  simp [cyclesLeft, hcmd]

theorem cyclesLeft_of_spiXfer {out : Byte} (hcmd : decode s.curCmd = .command (.spiXfer out)) :
    cyclesLeft s = phasesAfter s.spi * (1 + s.cfg.settleCycles) + phaseLeft s.cfg.settleCycles s.spi := by
  simp [cyclesLeft, hcmd]

/-- A command with more than one cycle left is one of the three with a hold. -/
theorem command_of_cyclesLeft (h : 1 < cyclesLeft s) :
    decode s.curCmd = .command .spiBegin ∨ decode s.curCmd = .command .spiEnd ∨
      ∃ out, decode s.curCmd = .command (.spiXfer out) := by
  unfold cyclesLeft at h
  split at h
  · exact .inl ‹_›
  · exact .inr (.inl ‹_›)
  · exact .inr (.inr ⟨_, ‹_›⟩)
  · exact absurd h (lt_irrefl 1)

theorem phasesAfter_drive {u : SpiUnit} (h : u.phase = .drive) : phasesAfter u = 3 * u.bitCnt.toNat + 2 := by
  simp [phasesAfter, h]

theorem phasesAfter_high {u : SpiUnit} (h : u.phase = .high) : phasesAfter u = 3 * u.bitCnt.toNat + 1 := by
  simp [phasesAfter, h]

theorem phasesAfter_low {u : SpiUnit} (h : u.phase = .low) : phasesAfter u = 3 * u.bitCnt.toNat := by
  simp [phasesAfter, h]

theorem phaseLeft_of_zero (settle : Nat) {u : SpiUnit} (h : u.holdCnt = 0#16) : phaseLeft settle u = 1 + settle :=
  if_pos h

theorem phaseLeft_of_ne_zero (settle : Nat) {u : SpiUnit} (h : u.holdCnt ≠ 0#16) :
    phaseLeft settle u = u.holdCnt.toNat := if_neg h

/-! What a cycle before the commit keeps -/

/-- `t` runs a command, and what the registers but PINS read from is in it as in `s`, `BUSY` excepted (R57). -/
structure RunsUncommitted (s t : State) : Prop where
  running : t.seq = .run
  cfg : t.cfg = s.cfg
  trk : t.trk = s.trk
  rdy : t.spi.spiRdy = s.spi.spiRdy
  session : t.spi.session = s.spi.session
  rxValid : t.spi.rxValid = s.spi.rxValid
  rxData : t.spi.rxData = s.spi.rxData

theorem RunsUncommitted.trans (h₁ : RunsUncommitted s t) (h₂ : RunsUncommitted t u) : RunsUncommitted s u where
  running := h₂.running
  cfg := h₂.cfg.trans h₁.cfg
  trk := h₂.trk.trans h₁.trk
  rdy := h₂.rdy.trans h₁.rdy
  session := h₂.session.trans h₁.session
  rxValid := h₂.rxValid.trans h₁.rxValid
  rxData := h₂.rxData.trans h₁.rxData

/-- While a command runs that has not committed, STATUS shows the old fields with `BUSY` = 1. -/
theorem RunsUncommitted.statusWord_eq (h : RunsUncommitted s t) (hidle : s.seq = .idle) :
    statusWord t = statusWord s ||| 0x0001#16 := by
  have hbusy : fieldBit (busy t) 0 = 0x0001#16 := by simp [busy, h.running, fieldBit]
  have hfree : fieldBit (busy s) 0 = 0x0000#16 := by simp [busy, hidle, fieldBit]
  rw [statusWord, statusWord, hbusy, hfree, h.rdy, h.session, h.trk, h.rxValid, BitVec.zero_or]
  ac_rfl

/-- While a command runs that has not committed, every register but STATUS and PINS reads as before it. -/
theorem RunsUncommitted.readReg_eq (h : RunsUncommitted s t) {a : Addr} (hstatus : a ≠ 0x01#5)
    (hpins : a ≠ 0x03#5) : readReg a t = readReg a s := by
  have hreg : regAt a ≠ .status ∧ regAt a ≠ .pins := by
    revert a
    decide
  obtain ⟨-, hcfg, htrk, -, -, -, hrx⟩ := h
  unfold readReg
  cases ha : regAt a <;> simp_all [regWord]

/-- A cycle that does not commit: the registers stay and one cycle less is left. -/
structure CountsDown (s t : State) : Prop where
  uncommitted : RunsUncommitted s t
  left : cyclesLeft t + 1 = cyclesLeft s

theorem runsUncommitted_setHoldCnt (hrun : s.seq = .run) (n : BitVec 16) : RunsUncommitted s (setHoldCnt n s) :=
  ⟨hrun, rfl, rfl, rfl, rfl, rfl, rfl⟩

/-- A cycle in which a hold only counts (R94). -/
theorem countsDown_setHoldCnt (hrun : s.seq = .run) (hleft : 1 < cyclesLeft s) (hcnt : 1 < s.spi.holdCnt.toNat) :
    CountsDown s (setHoldCnt (s.spi.holdCnt - 1#16) s) := by
  have hdec : (s.spi.holdCnt - 1#16).toNat + 1 = s.spi.holdCnt.toNat := by bv_omega
  generalize s.spi.holdCnt - 1#16 = n at hdec
  refine ⟨runsUncommitted_setHoldCnt hrun n, ?_⟩
  obtain hcmd | hcmd | ⟨out, hcmd⟩ := command_of_cyclesLeft hleft
  · rw [cyclesLeft_of_spiBegin hcmd, cyclesLeft_of_spiBegin (s := setHoldCnt n s) hcmd]
    exact hdec
  · rw [cyclesLeft_of_spiEnd hcmd, cyclesLeft_of_spiEnd (s := setHoldCnt n s) hcmd]
    exact hdec
  · have hnow := phaseLeft_of_ne_zero s.cfg.settleCycles (u := s.spi) (by bv_omega)
    have hnext := phaseLeft_of_ne_zero s.cfg.settleCycles (u := (setHoldCnt n s).spi) (by show n ≠ 0#16; bv_omega)
    rw [cyclesLeft_of_spiXfer hcmd, cyclesLeft_of_spiXfer (s := setHoldCnt n s) hcmd, hnow, ← hdec, ← Nat.add_assoc]
    exact congrArg (_ + · + 1) hnext

/-- `P_SETTLE_CYCLES` of a well-formed configuration fits the hold counter (R8). -/
theorem settleCycles_toNat {cfg : Cfg} (hwf : cfg.wf = true) :
    (BitVec.ofNat 16 cfg.settleCycles).toNat = cfg.settleCycles := by
  obtain ⟨-, -, -, -, ⟨-, hbound⟩, -⟩ := cfg.wf_iff.1 hwf
  exact Nat.mod_eq_of_lt (by omega)

/-- The action cycle of a phase starts its hold (R94). -/
theorem countsDown_phaseStart {out : Byte} (hwf : s.cfg.wf = true) (hrun : s.seq = .run)
    (hcmd : decode s.curCmd = .command (.spiXfer out)) (hcnt : s.spi.holdCnt = 0#16) :
    CountsDown s (startHold (phaseAction s.spi.phase s)) := by
  have hactionCmd (p : Phase) : (phaseAction p s).curCmd = s.curCmd := by cases p <;> rfl
  have haction (p : Phase) : RunsUncommitted s (startHold (phaseAction p s)) := by
    cases p <;> constructor <;> simp [phaseAction, hrun]
  have hphases (p : Phase) : phasesAfter (startHold (phaseAction p s)).spi = phasesAfter s.spi := by cases p <;> rfl
  have hsettle : phaseLeft s.cfg.settleCycles (startHold (phaseAction s.spi.phase s)).spi = s.cfg.settleCycles := by
    have hcfg : (phaseAction s.spi.phase s).cfg = s.cfg := (haction _).cfg
    rw [startHold_spi, hcfg, phaseLeft_of_ne_zero _ (settleCycles_ne_zero hwf), settleCycles_toNat hwf]
  have hcmd' : decode (startHold (phaseAction s.spi.phase s)).curCmd = .command (.spiXfer out) := by
    rw [startHold_curCmd, hactionCmd, hcmd]
  refine ⟨haction _, ?_⟩
  rw [cyclesLeft_of_spiXfer hcmd', (haction _).cfg, hphases, hsettle, cyclesLeft_of_spiXfer hcmd,
    phaseLeft_of_zero _ hcnt]
  omega

/-- The next phase of a transfer begins, which ends the one it is in: a phase less is left behind it. -/
theorem countsDown_nextPhase {out : Byte} (hcmd : decode s.curCmd = .command (.spiXfer out))
    (hcnt : s.spi.holdCnt = 1#16) (hnext : RunsUncommitted s t) (hcmd' : t.curCmd = s.curCmd)
    (hcnt' : t.spi.holdCnt = 0#16) (hphases : phasesAfter t.spi + 1 = phasesAfter s.spi) : CountsDown s t := by
  refine ⟨hnext, ?_⟩
  have hlast : phaseLeft s.cfg.settleCycles s.spi = 1 := by simp [phaseLeft, hcnt]
  rw [cyclesLeft_of_spiXfer (hcmd' ▸ hcmd), cyclesLeft_of_spiXfer hcmd, hnext.cfg, phaseLeft_of_zero _ hcnt', hlast,
    ← hphases, Nat.succ_mul]

/-- The end of a phase's hold starts the next phase, when the transfer has more than this cycle left (R94). -/
theorem countsDown_phaseDone {out : Byte} (hrun : s.seq = .run) (hcmd : decode s.curCmd = .command (.spiXfer out))
    (hleft : 1 < cyclesLeft s) (hcnt : s.spi.holdCnt = 1#16) : CountsDown s (phaseDone (setHoldCnt 0#16 s)) := by
  have hphase : (setHoldCnt 0#16 s).spi.phase = s.spi.phase := rfl
  unfold phaseDone
  cases hp : s.spi.phase <;> rw [hp] at hphase <;> rw [hphase]
  case drive =>
    refine countsDown_nextPhase hcmd hcnt ⟨hrun, rfl, rfl, rfl, rfl, rfl, rfl⟩ rfl rfl ?_
    rw [phasesAfter_drive hp]
    rfl
  case high =>
    refine countsDown_nextPhase hcmd hcnt ⟨hrun, rfl, rfl, rfl, rfl, rfl, rfl⟩ rfl rfl ?_
    rw [phasesAfter_high hp]
    rfl
  case low =>
    have hbits : (shiftOut (setHoldCnt 0#16 s)).spi.bitCnt ≠ 0#3 := by
      intro hzero
      have hzero : s.spi.bitCnt = 0#3 := hzero
      simp [cyclesLeft_of_spiXfer hcmd, phasesAfter_low hp, hzero, phaseLeft, hcnt] at hleft
    dsimp only
    rw [if_neg hbits]
    refine countsDown_nextPhase hcmd hcnt ⟨hrun, rfl, rfl, rfl, rfl, rfl, rfl⟩ rfl rfl ?_
    rw [phasesAfter_low hp]
    have hdec : (s.spi.bitCnt - 1#3).toNat + 1 = s.spi.bitCnt.toNat := by
      have hbits : s.spi.bitCnt ≠ 0#3 := hbits
      bv_omega
    show 3 * (s.spi.bitCnt - 1#3).toNat + 2 + 1 = _
    omega

/-- A cycle of a hold that has more than this one left only counts. -/
theorem countHold_of_one_lt (done : State → State) (hcnt : 1 < s.spi.holdCnt.toNat) :
    countHold done s = setHoldCnt (s.spi.holdCnt - 1#16) s :=
  if_neg (Nat.not_le_of_lt hcnt)

/-- A cycle of a running command with more than this one left does not commit. -/
theorem countsDown_advance (hwf : s.cfg.wf = true) (hrun : s.seq = .run) (hleft : 1 < cyclesLeft s) :
    CountsDown s (advance s) := by
  have hcount := countsDown_setHoldCnt hrun hleft
  have hadvance : advance s = runCycle s := by simp [advance, hrun]
  rw [hadvance, runCycle]
  obtain hcmd | hcmd | ⟨out, hcmd⟩ := command_of_cyclesLeft hleft <;> rw [hcmd] <;> dsimp only
  · rw [cyclesLeft_of_spiBegin hcmd] at hleft
    exact countHold_of_one_lt _ hleft ▸ hcount hleft
  · rw [cyclesLeft_of_spiEnd hcmd] at hleft
    exact countHold_of_one_lt _ hleft ▸ hcount hleft
  · unfold xferCycle
    split
    case isTrue hzero => exact countsDown_phaseStart hwf hrun hcmd hzero
    case isFalse hzero =>
      rw [countHold_eq]
      split
      case isTrue hlast => exact countsDown_phaseDone hrun hcmd hleft (by bv_omega)
      case isFalse hmore => exact hcount (Nat.lt_of_not_le hmore)

/-- In every cycle a running command has left but the last, it has not committed. -/
theorem runsUncommitted_advanceN (hwf : s.cfg.wf = true) (h : RunsUncommitted s t) {k : Nat} (hk : k < cyclesLeft t) :
    RunsUncommitted s (advanceN k t) := by
  induction k generalizing t with
  | zero => exact h
  | succ k ih =>
    obtain ⟨hnext, hleft⟩ := countsDown_advance (h.cfg.symm ▸ hwf) h.running (by omega)
    exact ih (h.trans hnext) (by omega)

/-! Acceptance -/

/-- A legal command is accepted (R94). -/
theorem startCommand_of_legal {i : Instr} (hlegal : legalIn i s = true) :
    startCommand i s = .next (acceptEffect i s) := by
  rw [startCommand_eq_faultOr, (contractFault_eq_none_iff i s).2 hlegal, faultOr_none]

/-- Only the three commands with a hold take more than their acceptance cycle (R150). -/
theorem command_of_one_lt_cycleCount {i : Instr} {settle : Nat} (h : 1 < cycleCount i settle) :
    i = .spiBegin ∨ i = .spiEnd ∨ ∃ out, i = .spiXfer out := by
  cases i <;> simp [cycleCount] at h ⊢

theorem cyclesLeft_spiBeginStart (hwf : s.cfg.wf = true) : cyclesLeft (spiBeginStart s) = s.cfg.settleCycles := by
  have hcmd : decode (spiBeginStart s).curCmd = .command .spiBegin := decode_encode _
  rw [cyclesLeft_of_spiBegin hcmd]
  exact settleCycles_toNat hwf

theorem cyclesLeft_spiEndStart (hwf : s.cfg.wf = true) : cyclesLeft (spiEndStart s) = s.cfg.settleCycles := by
  have hcmd : decode (spiEndStart s).curCmd = .command .spiEnd := decode_encode _
  rw [cyclesLeft_of_spiEnd hcmd]
  exact settleCycles_toNat hwf

/-- A transfer starts with all its 24 phases left (R150). -/
theorem cyclesLeft_spiXferStart (hcnt : s.spi.holdCnt = 0#16) (out : Byte) :
    cyclesLeft (spiXferStart out s) = 24 * (1 + s.cfg.settleCycles) := by
  have hcmd : decode (spiXferStart out s).curCmd = .command (.spiXfer out) := decode_encode _
  have hphases : phasesAfter (spiXferStart out s).spi = 23 := rfl
  have hphase := phaseLeft_of_zero s.cfg.settleCycles (u := (spiXferStart out s).spi) hcnt
  have hcfg : (spiXferStart out s).cfg = s.cfg := rfl
  rw [cyclesLeft_of_spiXfer hcmd, hphases, hcfg, hphase, ← Nat.succ_mul]

/-- A command accepted with a hold runs, has not committed, and has the rest of its cycles left (R150). -/
theorem acceptEffect_of_one_lt_cycleCount {i : Instr} (hwf : s.cfg.wf = true) (hcnt : s.spi.holdCnt = 0#16)
    (hi : 1 < cycleCount i s.cfg.settleCycles) :
    RunsUncommitted s (acceptEffect i s) ∧ 1 + cyclesLeft (acceptEffect i s) = cycleCount i s.cfg.settleCycles := by
  obtain rfl | rfl | ⟨out, rfl⟩ := command_of_one_lt_cycleCount hi <;>
    refine ⟨⟨rfl, rfl, rfl, rfl, rfl, rfl, rfl⟩, congrArg (1 + ·) ?_⟩
  · exact cyclesLeft_spiBeginStart hwf
  · exact cyclesLeft_spiEndStart hwf
  · exact cyclesLeft_spiXferStart hcnt out

/-- Settles O55: the acceptance cycle does not commit, no later one does while a cycle is left behind it, and before the
commit the registers read from what the command began with. -/
theorem readsDuringACommandSeeTheOldRegisters : Obligations.ReadsDuringACommandSeeTheOldRegisters := by
  intro i s hwf hidle hcnt _ hlegal
  refine ⟨acceptEffect i s, startCommand_of_legal hlegal, fun k hk => ?_⟩
  obtain ⟨haccept, hleft⟩ := acceptEffect_of_one_lt_cycleCount (i := i) hwf hcnt (by omega)
  have hbefore := runsUncommitted_advanceN hwf haccept (k := k) (by omega)
  exact ⟨hbefore.statusWord_eq hidle, fun a hstatus hpins => hbefore.readReg_eq hstatus hpins⟩

end Sys2Proof.Machine
end

section
/-! The encoding of commands (30_encoding.md R67 to R75): the fields of a word, which words decode to a command and to
which, and that these are the words of the opcode table. -/

namespace Sys2Proof

/-! The fields of a word -/

/-- A word is its three fields: `IMM8 ++ RSV ++ OP` (R67). -/
theorem word_eq_fields (w : Word) : immField w ++ (rsvField w ++ opField w) = w := by
  have hlow : rsvField w ++ opField w = w.extractLsb' 0 8 := BitVec.extractLsb'_append_extractLsb'_eq_extractLsb' rfl
  calc immField w ++ (rsvField w ++ opField w) = w.extractLsb' 0 16 := by
        rw [hlow]
        exact BitVec.extractLsb'_append_extractLsb'_eq_extractLsb' rfl
    _ = w := BitVec.extractLsb'_eq_self

theorem opField_toNat (w : Word) : (opField w).toNat = w.toNat % 16 := by
  simp [opField]

theorem rsvField_toNat (w : Word) : (rsvField w).toNat = w.toNat / 16 % 16 := by
  simp [rsvField, Nat.shiftRight_eq_div_pow]

theorem immField_toNat (w : Word) : (immField w).toNat = w.toNat / 256 := by
  have hw := w.isLt
  simp only [immField, BitVec.extractLsb'_toNat, Nat.shiftRight_eq_div_pow]
  omega

/-! What a word decodes to -/

/-- The last case of R72 gives the command of the opcode, one without an operand (R71). -/
theorem decodeFixed_eq_command {n : Nat} {i : Instr} (h : decodeFixed n = .command i) :
    n = (opcodeOf i).toNat ∧ immOf i = 0x00#8 := by
  unfold decodeFixed at h
  split at h <;> cases h <;> exact ⟨rfl, rfl⟩

/-- The last case of R72 rejects 0xB and more (R74), and the opcode of `SPI_XFER`, which an earlier case decodes. -/
theorem decodeFixed_eq_illegal_iff (n : Nat) :
    (∃ why, decodeFixed n = .illegal why) ↔ n = 0x4 ∨ 0xB ≤ n := by
  unfold decodeFixed
  split
  case h_11 =>
    simp only [imp_false] at *
    simp only [Decoded.illegal.injEq, exists_eq', true_iff]
    omega
  all_goals simp

/-- The fields of a word that decodes to a command are the command's own. -/
theorem fields_of_decode {w : Word} {i : Instr} (h : decode w = .command i) :
    opField w = opcodeOf i ∧ rsvField w = 0#4 ∧ immField w = immOf i := by
  unfold decode at h
  split_ifs at h with hrsv hop himm
  · cases h
    exact ⟨hop, not_not.1 hrsv, rfl⟩
  · obtain ⟨hcode, hzero⟩ := decodeFixed_eq_command h
    exact ⟨BitVec.eq_of_toNat_eq hcode, not_not.1 hrsv, (not_not.1 himm).trans hzero.symm⟩

/-- A word that decodes to a command is the command's word. -/
theorem eq_encode_of_decode {w : Word} {i : Instr} (h : decode w = .command i) : w = encode i := by
  obtain ⟨hop, hrsv, himm⟩ := fields_of_decode h
  calc w = immField w ++ (rsvField w ++ opField w) := (word_eq_fields w).symm
    _ = encode i := by rw [hop, hrsv, himm, encode]

/-- Settles O2: the three fields of a decoded word are those of the command and make the whole word; the word of a
command decodes to it by `decode_encode`. -/
theorem decodeInvertsEncode : Obligations.DecodeInvertsEncode :=
  fun i _ => ⟨eq_encode_of_decode, fun h => h ▸ Machine.decode_encode i⟩

/-! Which words are legal -/

/-- The reasons of R73, as conditions on the fields. -/
theorem decode_illegal_iff_fields (w : Word) : (∃ why, decode w = .illegal why) ↔
    rsvField w ≠ 0#4 ∨ 0xB ≤ (opField w).toNat ∨ (opField w ≠ 0x4#4 ∧ immField w ≠ 0x00#8) := by
  unfold decode
  split_ifs with hrsv hop himm
  · simp [hrsv]
  · simp [hrsv, hop]
  · simp [hop, himm]
  · have hcode : (opField w).toNat ≠ 0x4 := fun h => hop (BitVec.eq_of_toNat_eq h)
    simp [decodeFixed_eq_illegal_iff, hrsv, himm, hcode]

/-- The reasons of R73, as conditions on the number of the word. -/
theorem decode_illegal_iff (w : Word) : (∃ why, decode w = .illegal why) ↔
    (w.toNat / 16 % 16 ≠ 0 ∨ 0xB ≤ w.toNat % 16 ∨ (w.toNat % 16 ≠ 4 ∧ w.toNat / 256 ≠ 0)) := by
  simp [decode_illegal_iff_fields, ← BitVec.toNat_inj, opField_toNat, rsvField_toNat, immField_toNat]

/-- A word decodes to a command or is illegal (R72). -/
theorem decode_command_iff_not_illegal (w : Word) :
    (∃ i, decode w = .command i) ↔ ¬ ∃ why, decode w = .illegal why := by
  cases decode w <;> simp

/-- The legal words by number: those up to 0x000A but 0x0004, and the 256 words of `SPI_XFER`. -/
theorem decode_command_iff (w : Word) :
    (∃ i, decode w = .command i) ↔ (w.toNat ≤ 0x000A ∧ w.toNat ≠ 4) ∨ w.toNat % 256 = 4 := by
  have hw := w.isLt
  rw [decode_command_iff_not_illegal, decode_illegal_iff]
  omega

theorem toInstr_isSome_iff (d : Decoded) : d.toInstr.isSome ↔ ∃ i, d = .command i := by
  cases d <;> simp [Decoded.toInstr]

/-- The mask of the row of `SPI_XFER` keeps the low byte of a word. -/
theorem and_lowByte_eq_iff (w : Word) : w &&& 0x00FF#16 = 0x0004#16 ↔ w.toNat % 256 = 4 := by
  rw [← BitVec.toNat_inj, BitVec.toNat_and]
  exact iff_of_eq (congrArg (· = 4) (Nat.and_two_pow_sub_one_eq_mod w.toNat 8))

/-- The words the rows of the table cover, by number. -/
theorem legalWord_iff (w : Word) :
    legalWord w = true ↔ (w.toNat ≤ 0x000A ∧ w.toNat ≠ 4) ∨ w.toNat % 256 = 4 := by
  have hfull : w &&& 0xFFFF#16 = w := BitVec.and_allOnes
  simp only [legalWord, opcodeRows, OpcodeRow.covers, List.cons_append, List.nil_append, List.any_cons, List.any_nil,
    hfull, Bool.or_eq_true, beq_iff_eq, Bool.false_eq_true,
    or_false, and_lowByte_eq_iff]
  simp only [← BitVec.toNat_inj, BitVec.toNat_ofNat]
  omega

/-- The number of the legal words: ten and the 256 words of `SPI_XFER` (R72). -/
theorem card_legal_numbers :
    ((Finset.range 65536).filter fun n => (n ≤ 0x000A ∧ n ≠ 4) ∨ n % 256 = 4).card = 266 := by
  have hfixed : ((Finset.range 65536).filter fun n => n ≤ 0x000A ∧ n ≠ 4) = (Finset.range 11).erase 4 := by
    ext n
    simp only [Finset.mem_filter, Finset.mem_erase, Finset.mem_range]
    omega
  have hxfer : ((Finset.range 65536).filter fun n => n % 256 = 4).card = 256 := by
    have hcount := Nat.count_modEq_card 65536 (r := 256) (by decide) 4
    rwa [Nat.count_eq_card_filter_range] at hcount
  have hdisjoint : Disjoint ((Finset.range 65536).filter fun n => n ≤ 0x000A ∧ n ≠ 4)
      ((Finset.range 65536).filter fun n => n % 256 = 4) :=
    Finset.disjoint_filter.2 fun n _ h => by omega
  rw [Finset.filter_or, Finset.card_union_of_disjoint hdisjoint, hxfer, hfixed]
  rfl

/-- Settles O4: the decoder and the rows of the table accept the same numbers, and of these there are 266. -/
theorem exactlyTheWordsOfTheTableAreLegal : Obligations.ExactlyTheWordsOfTheTableAreLegal := by
  refine ⟨?_, fun w => ⟨?_, ?_⟩⟩
  · have hlegal (n : Nat) (hn : n ∈ List.range 65536) : (decode (BitVec.ofNat 16 n)).toInstr.isSome ↔
        (n ≤ 0x000A ∧ n ≠ 4) ∨ n % 256 = 4 := by
      rw [toInstr_isSome_iff, decode_command_iff, BitVec.toNat_ofNat, Nat.mod_eq_of_lt (List.mem_range.1 hn)]
    calc (List.range 65536).countP (fun n => (decode (BitVec.ofNat 16 n)).toInstr.isSome)
        = (List.range 65536).countP (fun n => decide ((n ≤ 0x000A ∧ n ≠ 4) ∨ n % 256 = 4)) :=
          List.countP_congr fun n hn => (hlegal n hn).trans decide_eq_true_iff.symm
      _ = ((Finset.range 65536).filter fun n => (n ≤ 0x000A ∧ n ≠ 4) ∨ n % 256 = 4).card :=
          Nat.count_eq_card_filter_range _ _
      _ = 266 := card_legal_numbers
  · rw [legalWord_iff, decode_command_iff]
  · rw [legalWord_iff, and_lowByte_eq_iff]

/-- Settles O1: each word is decoded as written. -/
theorem wordsDecodeAsTheOpcodeMapSays : Obligations.WordsDecodeAsTheOpcodeMapSays := by
  unfold Obligations.WordsDecodeAsTheOpcodeMapSays
  decide

end Sys2Proof

namespace Sys2Proof.Machine

/-- An illegal word enters `ILLEGAL_COMMAND` with the word, whatever an issued command would do (R73, R115). -/
theorem issueWord_of_illegal (run : Instr → State → Answer) {w : Word} {why : IllegalWord} {s : State}
    (hdecode : decode w = .illegal why) : issueWord run w s = .next (raiseFault (.illegalCommand w) s) := by
  simp [issueWord, hdecode]

/-- The hardware ignores an illegal word (R73). -/
theorem hardwareIssue_of_illegal {w : Word} {why : IllegalWord} {s : State} (hdecode : decode w = .illegal why) :
    hardwareIssue w s = s := by
  simp [hardwareIssue, hdecode]

/-- Settles O3: the reasons of R73 by the fields of the word, and an idle machine completes the CMD write, whose issue
only records the fault. -/
theorem illegalWordIsIgnoredByHardwareAndFaultsInTheModel :
    Obligations.IllegalWordIsIgnoredByHardwareAndFaultsInTheModel := by
  refine fun w => ⟨decode_illegal_iff w, ?_⟩
  rintro ⟨why, hdecode⟩ s
  refine ⟨hardwareIssue_of_illegal hdecode, fun rest hwf hfault hidle hqueue => ?_⟩
  calc step s = issueWord exec w (setQueue rest s) := hostStep_of_cmd_write_idle exec hwf hfault hidle hqueue
    _ = .next (raiseFault (.illegalCommand w) (setQueue rest s)) := issueWord_of_illegal exec hdecode

/-- Settles O58: each line is assembled as written. -/
theorem assemblerLines : Obligations.AssemblerLines := by
  unfold Obligations.AssemblerLines
  decide

end Sys2Proof.Machine
end

section
/-! A session (30_encoding.md R76, 41_spi_master.md R84 to R93): the whole result of a transfer, of any number of them
in a session, and of the session. -/

namespace Sys2Proof.Machine

variable {s t : State}

/-! The bit periods of a transfer -/

/-- The bits of the first `n` periods of a transfer that starts with `TX_SR` = `v`; `serialBits_eq_sentBits` gives those
of a byte. -/
def sentBits : Nat → Byte → List Level
  | 0, _ => []
  | n + 1, v => v.getLsbD 7 :: sentBits n (v <<< 1)

/-- Eight periods send the bits of the byte, most significant first (R52). -/
theorem serialBits_eq_sentBits (v : Byte) : serialBits v = sentBits 8 v := by
  simp [serialBits, sentBits, ← BitVec.shiftLeft_add]

/-- The sent bit leaves a 0 behind (R84). -/
theorem shiftIn_false (v : Byte) : shiftIn v false = v <<< 1 := BitVec.or_zero

/-- The bit periods of indices `n` down to 0 as one update. -/
theorem bitPeriods_succ_eq (n : Nat) (s : State) : bitPeriods (n + 1) s = { s with
    spi := { s.spi with
      bitCnt := 0#3, phase := .low, holdCnt := 0#16, sckLat := false, mosiLat := (s.spi.txSr <<< n).getLsbD 7
      rxSr := (drawLevels (n + 1) s.env).1.foldl shiftIn s.spi.rxSr, txSr := s.spi.txSr <<< (n + 1) }
    env := (drawLevels (n + 1) s.env).2
    trace := s.trace ++ xferEvents (sentBits (n + 1) s.spi.txSr) (drawLevels (n + 1) s.env).1 } := by
  induction n generalizing s with
  | zero => simp [bitPeriods, bitPeriod_eq, shiftIn_false, drawLevels, sentBits, xferEvents, periodEvents]
  | succ n ih =>
    rw [bitPeriods, ih, bitPeriod_eq]
    simp [shiftIn_false, drawLevels, sentBits, xferEvents, periodEvents, ← BitVec.shiftLeft_add, Nat.add_comm]

/-- The whole effect of `SPI_XFER`, for every byte and every peer (R84 to R87). -/
theorem spiXferEffect_eq (out : Byte) (s : State) : spiXferEffect out s = { s with
    curCmd := encode (.spiXfer out)
    spi := { s.spi with
      rxValid := true, rxData := byteOfSamples (drawLevels 8 s.env).1, rxSr := byteOfSamples (drawLevels 8 s.env).1
      txSr := 0x00#8, bitCnt := 0#3, phase := .low, holdCnt := 0#16, sckLat := false, mosiLat := out.getLsbD 0 }
    env := (drawLevels 8 s.env).2
    trace := s.trace ++ xferEvents (serialBits out) (drawLevels 8 s.env).1 } := by
  have hempty : out <<< 8 = 0#8 := BitVec.shiftLeft_eq_zero (Nat.le_refl 8)
  have hlast : (out <<< 7).getLsbD 7 = out.getLsbD 0 := by simp
  rw [spiXferEffect, bitPeriods_succ_eq, serialBits_eq_sentBits]
  simp only [commitRx, loadShift, acceptWord, byteOfSamples, hempty, hlast]

theorem drawLevels_length (n : Nat) (e : Env) : (drawLevels n e).1.length = n := by
  induction n generalizing e with
  | zero => rfl
  | succ n ih => simp [drawLevels, ih]

/-! Lists of commands -/

/-- The commands of two lists run one list after the other. -/
theorem execAll_append (is js : List Instr) (s : State) :
    execAll (is ++ js) s = andThen (execAll is s) (execAll js) := by
  induction is generalizing s with
  | nil => rfl
  | cons i is ih =>
    simp only [List.cons_append, execAll]
    cases exec i s with
    | next u => exact ih u
    | fault r => rfl
    | refused r => rfl

/-- A legal command in front of a list is its effect. -/
theorem execAll_cons_of_legal {i : Instr} (hlegal : legalIn i s = true) (is : List Instr) :
    execAll (i :: is) s = execAll is (hardwareExec i s) := by
  rw [execAll, exec_of_legal hlegal, andThen_next]

/-! Transfers in a session -/

/-- From `s` to `t` the bytes are transferred one after another in an open session, with the samples `bss` (R86, R90):
nothing but the transfers is in the trace, and RXDATA is that of the last one. -/
structure Transferred (bytes : List Byte) (bss : List (List Level)) (s t : State) : Prop where
  samples : bss.length = bytes.length
  eight : ∀ bs ∈ bss, bs.length = 8
  trace : t.trace = s.trace ++ (bytes.zip bss).flatMap fun p => xferEvents (serialBits p.1) p.2
  rxData : t.spi.rxData = (bss.getLast?.map byteOfSamples).getD s.spi.rxData
  rdy : t.spi.spiRdy = s.spi.spiRdy
  session : t.spi.session = s.spi.session
  cfg : t.cfg = s.cfg
  fault : t.fault = s.fault
  trk : t.trk = s.trk

theorem Transferred.nil (s : State) : Transferred [] [] s s := by constructor <;> simp

/-- One more transfer in front. -/
theorem Transferred.cons {out : Byte} {bytes : List Byte} {bss : List (List Level)}
    (h : Transferred bytes bss (spiXferEffect out s) t) :
    Transferred (out :: bytes) ((drawLevels 8 s.env).1 :: bss) s t := by
  obtain ⟨hsamples, height, htrace, hrx, hrdy, hsession, hcfg, hfault, htrk⟩ := h
  rw [spiXferEffect_eq] at htrace hrx hrdy hsession hcfg hfault htrk
  refine ⟨congrArg Nat.succ hsamples, ?_, ?_, ?_, hrdy, hsession, hcfg, hfault, htrk⟩
  · exact List.forall_mem_cons.2 ⟨drawLevels_length 8 s.env, height⟩
  · simpa using htrace
  · rw [hrx, List.getLast?_cons]
    cases bss.getLast? <;> rfl

/-- Any bytes are transferred in an open session. -/
theorem execAll_transfers (bytes : List Byte) (hrdy : s.spi.spiRdy = true) (hsession : s.spi.session = true) :
    ∃ t bss, execAll (bytes.map Instr.spiXfer) s = .next t ∧ Transferred bytes bss s t := by
  induction bytes generalizing s with
  | nil => exact ⟨s, [], rfl, .nil s⟩
  | cons out bytes ih =>
    have hlegal : legalIn (.spiXfer out) s = true := by simp [legalIn, hrdy, hsession]
    obtain ⟨t, bss, hrun, hsent⟩ := ih (s := spiXferEffect out s)
      (by rw [spiXferEffect_eq]; exact hrdy) (by rw [spiXferEffect_eq]; exact hsession)
    exact ⟨t, _, (execAll_cons_of_legal hlegal _).trans hrun, hsent.cons⟩

/-- Settles O28: the session opens, its transfers follow by induction on the bytes, and it closes. -/
theorem sessionOfAnyBytes : Obligations.SessionOfAnyBytes := by
  intro s bytes hrdy hsession
  have hbegin : legalIn .spiBegin s = true := by simp [legalIn, hrdy, hsession]
  obtain ⟨u, bss, hrun, hsent⟩ := execAll_transfers bytes (s := spiBeginEffect s) hrdy rfl
  have hend : legalIn .spiEnd u = true := by
    simp [legalIn, hsent.rdy, hsent.session, spiBeginEffect, hrdy]
  have hcfg : u.cfg = s.cfg := hsent.cfg
  refine ⟨spiEndEffect u, bss, ?_, hsent.samples, hsent.eight, ?_, rfl, ?_, hsent.fault, hsent.trk,
    fun bs hlast => ?_⟩
  · calc execAll (sessionCommands bytes) s
        = execAll (bytes.map Instr.spiXfer ++ [Instr.spiEnd]) (spiBeginEffect s) := execAll_cons_of_legal hbegin _
      _ = execAll [.spiEnd] u := by rw [execAll_append, hrun, andThen_next]
      _ = .next (spiEndEffect u) := execAll_cons_of_legal hend []
  · simp [spiEndEffect, hsent.trace, spiBeginEffect, hcfg]
  · simp [spiEndEffect, hcfg]
  · have hrx := hsent.rxData
    rwa [hlast] at hrx

end Sys2Proof.Machine
end

section
/-! The pseudo-instruction `trk.step` (30_encoding.md R76) and the polling iteration `TRK_POLL` (42_signal_tracker.md
R108): what the parts of an iteration do does not depend on `CUR_CMD` or on the host's side. -/

namespace Sys2Proof.Machine

variable {s : State}

/-! The host issues commands and reads -/

/-- A command the host issues to an idle machine is the command itself; the accesses pending stay (R55). -/
theorem issue_of_idle (i : Instr) (hwf : s.cfg.wf = true) (hfault : s.fault = none) (hidle : s.seq = .idle) :
    issue i s = exec i s := by
  have hwait (n : Nat) : untilIdle n s = s := by cases n <;> simp [untilIdle, busy, hidle]
  calc issue i s = hostStep exec (setQueue (.write 0#5 (encode i) :: s.host.queue) s) := by
        rw [issue, hwait, hostNext, step]
    _ = issueWord exec (encode i) s := hostStep_of_cmd_write_idle exec hwf hfault hidle rfl
    _ = exec i s := issueWord_of_command exec (decode_encode i)

/-- The commands the host issues to an idle machine are the commands themselves: each leaves it idle. -/
theorem issueAll_cons_of_legal {i : Instr} (hwf : s.cfg.wf = true) (hfault : s.fault = none) (hidle : s.seq = .idle)
    (hlegal : legalIn i s = true) (is : List Instr) : issueAll (i :: is) s = issueAll is (hardwareExec i s) := by
  rw [issueAll, issue_of_idle i hwf hfault hidle, exec_of_legal hlegal, andThen_next]

/-- A read the host makes of an idle machine only adds what it returned to the host's record (R54). -/
theorem hostNext_read_of_idle (a : Addr) (hwf : s.cfg.wf = true) (hfault : s.fault = none) (hidle : s.seq = .idle) :
    hostNext (.read a) s = .next (logRead a (readReg a s) s) := by
  have hread := hostStep_of_read exec (s := setQueue (.read a :: s.host.queue) s) hwf hfault rfl
  have hkeep : advance (setQueue (.read a :: s.host.queue) s) = setQueue (.read a :: s.host.queue) s :=
    advance_of_idle hidle
  rwa [hkeep] at hread

/-! An iteration, up to `CUR_CMD` and the host's side -/

/-- `CUR_CMD` and the host's side are replaced. -/
def setCmdHost (w : Word) (p : HostPort) (s : State) : State := { s with curCmd := w, host := p }

section
variable (w : Word) (p : HostPort)

theorem mirrorUpdate_commute_setCmdHost : Function.Commute mirrorUpdate (setCmdHost w p) :=
  commute_ite (c := fun s => s.cfg.mirrorEn = true) (fun _ => .rfl) (fun _ => rfl) (fun _ => rfl)

theorem applyChanges_commute_setCmdHost : Function.Commute applyChanges (setCmdHost w p) := by
  have hpush : Function.Commute pushHistories (setCmdHost w p) := fun _ => rfl
  exact (mirrorUpdate_commute_setCmdHost w p).comp_left hpush

theorem reactToChanges_commute_setCmdHost : Function.Commute reactToChanges (setCmdHost w p) := by
  have hrender : Function.Commute renderSnapshot (setCmdHost w p) := fun _ => rfl
  exact commute_ite (c := fun s => s.trk.changes ≠ 0x00#8) (fun _ => .rfl)
    (hrender.comp_left (applyChanges_commute_setCmdHost w p)) (fun _ => rfl)

end

/-- A read of the host between the commands of an iteration. -/
theorem hostNext_read_setCmdHost (w : Word) (p : HostPort) (a : Addr) (hwf : s.cfg.wf = true) (hfault : s.fault = none)
    (hidle : s.seq = .idle) : hostNext (.read a) (setCmdHost w p s) =
      .next (setCmdHost w ⟨p.queue, p.readLog ++ [⟨a, readReg a (setCmdHost w p s)⟩]⟩ s) :=
  hostNext_read_of_idle (s := setCmdHost w p s) a hwf hfault hidle

theorem lastRead_setCmdHost (w : Word) (q : List HostAccess) (l : List ReadResult) (r : ReadResult) (s : State) :
    lastRead (setCmdHost w ⟨q, l ++ [r]⟩ s) = r.data := by
  simp [lastRead, setCmdHost]

/-- The detection of an iteration: a sample is taken and the change mask set (R108). -/
def sampleAndDetect (s : State) : State := detectChanges (takeSample s)

/-- `TRK_POLL` is the detection and the reaction to it. -/
theorem trkPoll_eq (s : State) : hardwareExec .trkPoll s =
    setCmdHost (encode .trkPoll) s.host (reactToChanges (sampleAndDetect s)) :=
  reactToChanges_commute_setCmdHost (encode .trkPoll) s.host (sampleAndDetect s)

/-- `TRK_SAMPLE` and `TRK_DETECT` are the detection. -/
theorem trkDetect_trkSample_eq (s : State) : hardwareExec .trkDetect (hardwareExec .trkSample s) =
    setCmdHost (encode .trkDetect) s.host (sampleAndDetect s) := rfl

/-- `TRK_APPLY` and `TRK_RENDER` are the reaction to a change. -/
theorem trkRender_trkApply_eq (w : Word) (p : HostPort) (hchange : s.trk.changes ≠ 0x00#8) :
    hardwareExec .trkRender (hardwareExec .trkApply (setCmdHost w p s)) =
      setCmdHost (encode .trkRender) p (reactToChanges s) :=
  calc hardwareExec .trkRender (hardwareExec .trkApply (setCmdHost w p s))
      = trkRenderEffect (applyChanges (setCmdHost (encode .trkApply) p s)) := rfl
    _ = trkRenderEffect (setCmdHost (encode .trkApply) p (applyChanges s)) := by
        rw [applyChanges_commute_setCmdHost _ _ s]
    _ = setCmdHost (encode .trkRender) p (renderSnapshot (applyChanges s)) := rfl
    _ = setCmdHost (encode .trkRender) p (reactToChanges s) := by rw [reactToChanges, if_pos hchange]

theorem applyChanges_fault (s : State) : (applyChanges s).fault = s.fault := by
  rw [applyChanges, mirrorUpdate_eq]
  split <;> rfl

theorem reactToChanges_fault (s : State) : (reactToChanges s).fault = s.fault := by
  unfold reactToChanges
  split
  · exact applyChanges_fault s
  · rfl

/-- After the detection `CHG`, which the host reads in bit 4 of STATUS, says whether there is a change (R18, R23). -/
theorem readReg_status_chg_sampleAndDetect (w : Word) (p : HostPort) (s : State) :
    (readReg 0x01#5 (setCmdHost w p (sampleAndDetect s))).getLsbD 4 =
      decide ((sampleAndDetect s).trk.changes ≠ 0x00#8) :=
  statusLayout (setCmdHost w p (sampleAndDetect s)) 4

section
variable (hwf : s.cfg.wf = true) (hfault : s.fault = none) (hidle : s.seq = .idle) (hrun : s.trk.trkRun = true)
include hwf hfault hidle hrun

theorem issueAll_trkSample_trkDetect :
    issueAll [.trkSample, .trkDetect] s = .next (setCmdHost (encode .trkDetect) s.host (sampleAndDetect s)) :=
  calc issueAll [.trkSample, .trkDetect] s
      = issueAll [.trkDetect] (hardwareExec .trkSample s) :=
        issueAll_cons_of_legal (i := .trkSample) hwf hfault hidle hrun _
    _ = .next (hardwareExec .trkDetect (hardwareExec .trkSample s)) :=
        issueAll_cons_of_legal (i := .trkDetect) (s := hardwareExec .trkSample s) hwf hfault hidle hrun []
    _ = .next (setCmdHost (encode .trkDetect) s.host (sampleAndDetect s)) := by rw [trkDetect_trkSample_eq]

theorem issueAll_trkApply_trkRender (w : Word) (p : HostPort) (hchange : s.trk.changes ≠ 0x00#8) :
    issueAll [.trkApply, .trkRender] (setCmdHost w p s) =
      .next (setCmdHost (encode .trkRender) p (reactToChanges s)) := by
  have hframe : TrkFrame (setCmdHost w p s) (hardwareExec .trkApply (setCmdHost w p s)) :=
    trkFrame_hardwareExec _ (by simp [IsTrkCommand])
  have happly : (hardwareExec .trkApply (setCmdHost w p s)).fault = none := (applyChanges_fault _).trans hfault
  calc issueAll [.trkApply, .trkRender] (setCmdHost w p s)
      = issueAll [.trkRender] (hardwareExec .trkApply (setCmdHost w p s)) :=
        issueAll_cons_of_legal (i := .trkApply) (s := setCmdHost w p s) hwf hfault hidle hrun _
    _ = .next (hardwareExec .trkRender (hardwareExec .trkApply (setCmdHost w p s))) :=
        issueAll_cons_of_legal (i := .trkRender) (hframe.cfg ▸ hwf) happly (hframe.seq.trans hidle)
          (hframe.run_kept hrun) []
    _ = .next (setCmdHost (encode .trkRender) p (reactToChanges s)) := by rw [trkRender_trkApply_eq w p hchange]

/-- `trk.step` is an iteration but for `CUR_CMD` and the host's record, which has one read of STATUS more. -/
theorem trkStepItem_eq : ∃ w r, trkStepItem s =
    .next (setCmdHost w ⟨s.host.queue, s.host.readLog ++ [r]⟩ (reactToChanges (sampleAndDetect s))) := by
  have hread := hostNext_read_setCmdHost (s := sampleAndDetect s) (encode .trkDetect) s.host 0x01#5 hwf hfault hidle
  rw [trkStepItem, issueAll_trkSample_trkDetect hwf hfault hidle hrun, andThen_next, hread, andThen_next,
    lastRead_setCmdHost, readReg_status_chg_sampleAndDetect]
  by_cases hchange : (sampleAndDetect s).trk.changes = 0x00#8
  · have hkeep : reactToChanges (sampleAndDetect s) = sampleAndDetect s := if_neg (not_not.2 hchange)
    rw [if_neg (by simpa using hchange), hkeep]
    exact ⟨_, _, rfl⟩
  · rw [if_pos (by simpa using hchange)]
    exact ⟨_, _, issueAll_trkApply_trkRender (s := sampleAndDetect s) hwf hfault hidle hrun _ _ hchange⟩

end

/-- Settles O38: both are the same iteration but for `CUR_CMD` and the host's side, of which the statement asks only for
the accesses pending and the one read. -/
theorem trkStepEqualsPoll : Obligations.TrkStepEqualsPoll := by
  intro s hwf hfault hidle hrun
  obtain ⟨w, r, hstep⟩ := trkStepItem_eq hwf hfault hidle hrun
  have hpoll : exec .trkPoll s =
      .next (setCmdHost (encode .trkPoll) s.host (reactToChanges (sampleAndDetect s))) :=
    (exec_of_legal (i := .trkPoll) hrun).trans (congrArg _ (trkPoll_eq s))
  have hfaultFree := (reactToChanges_fault (sampleAndDetect s)).trans hfault
  have hstillIdle := (trkFrame_reactToChanges (sampleAndDetect s)).seq.trans hidle
  exact ⟨_, _, hpoll, hstep, rfl, rfl, rfl, rfl, hfaultFree, hstillIdle, rfl, by simp [setCmdHost]⟩

end Sys2Proof.Machine
end

section
/-! The control command `NOP` (40_control.md R77). -/

namespace Sys2Proof.Machine

/-- R77 for the hardware, without the contract checks. -/
theorem hardwareExec_nop (s : State) : hardwareExec .nop s = s := rfl

/-- Settles O20: `NOP` is legal in every state, so it runs as the hardware runs it, and that changes nothing. -/
theorem nopChangesNothing : Obligations.NopChangesNothing := by
  intro s
  have hlegal : legalIn .nop s = true := rfl
  rw [exec_of_legal hlegal, hardwareExec_nop]

end Sys2Proof.Machine
end

section
/-! The SPI unit's commands as whole commands (41_spi_master.md R81 to R91): their results and faults, the byte a
transfer receives, and the loopback. -/

namespace Sys2Proof.Machine

variable {s : State}

/-! The words of the four commands (R67, R71) -/

theorem encode_spiInit : encode .spiInit = 0x0001#16 := by decide
theorem encode_spiBegin : encode .spiBegin = 0x0002#16 := by decide
theorem encode_spiEnd : encode .spiEnd = 0x0003#16 := by decide

theorem encode_spiXfer (out : Byte) : encode (.spiXfer out) = out ++ 0x04#8 :=
  congrArg (out ++ ·) (by decide : 0#4 ++ 0x4#4 = 0x04#8)

/-! Results and faults -/

/-- A command one of whose contract checks fails records the fault of that check and changes nothing else (R124). -/
theorem exec_of_contractFault {i : Instr} {f : Fault} (h : contractFault i s = some f) :
    exec i s = .next { s with fault := some f } := by
  rw [exec_eq_faultOr, h, faultOr_some]
  rfl

/-- The whole effect of `SPI_INIT` (R81). -/
theorem spiInitEffect_eq (s : State) : spiInitEffect s = { s with
    curCmd := 0x0001#16
    spi := { s.spi with
      spiRdy := true, session := false, csLat := !s.cfg.csActive, sckLat := false, mosiLat := false,
      csDir := .output, sckDir := .output, mosiDir := .output, misoDir := .input }
    trace := s.trace ++ [.drive .spiCs (!s.cfg.csActive), .drive .spiSck false, .drive .spiMosi false,
      .dir .spiCs .output, .dir .spiSck .output, .dir .spiMosi .output, .dir .spiMiso .input] } := by
  simp [spiInitEffect, acceptWord, pinWrite, pinDir, setLat, setDir, emit, setSpiRdy, setSession, encode_spiInit]

/-- The whole effect of `SPI_BEGIN` (R82). -/
theorem spiBeginEffect_eq (s : State) : spiBeginEffect s = { s with
    curCmd := 0x0002#16
    spi := { s.spi with session := true, csLat := s.cfg.csActive, holdCnt := 0#16 }
    trace := s.trace ++ [.drive .spiCs s.cfg.csActive, .hold] } := by
  simp [spiBeginEffect, acceptWord, pinWrite, setLat, hold, emit, setSession, encode_spiBegin]

/-- The whole effect of `SPI_END` (R83). -/
theorem spiEndEffect_eq (s : State) : spiEndEffect s = { s with
    curCmd := 0x0003#16
    spi := { s.spi with session := false, csLat := !s.cfg.csActive, holdCnt := 0#16 }
    trace := s.trace ++ [.drive .spiCs (!s.cfg.csActive), .hold] } := by
  simp [spiEndEffect, acceptWord, pinWrite, setLat, hold, emit, setSession, encode_spiEnd]

/-- Settles O21: outside a session `SPI_INIT` is legal, and inside one its only check fails. -/
theorem spiInitResult : Obligations.SpiInitResult := by
  intro s
  have hdone := spiInitEffect_eq s
  refine ⟨fun hsession => ?_, fun hsession => ?_, hdone⟩
  · have hlegal : legalIn .spiInit s = true := by simp [legalIn, hsession]
    exact (exec_of_legal hlegal).trans (congrArg _ hdone)
  · exact exec_of_contractFault (i := .spiInit) (by simp [contractFault, spiInitFault, hsession, encode_spiInit])

/-- Settles O22: `SPI_BEGIN` is legal when both its checks pass, and the first that fails gives the fault. -/
theorem spiBeginResult : Obligations.SpiBeginResult := by
  intro s
  have hdone := spiBeginEffect_eq s
  refine ⟨fun hrdy hsession => ?_, fun hrdy => ?_, fun hrdy hsession => ?_, hdone⟩
  · have hlegal : legalIn .spiBegin s = true := by simp [legalIn, hrdy, hsession]
    exact (exec_of_legal hlegal).trans (congrArg _ hdone)
  · exact exec_of_contractFault (i := .spiBegin) (by simp [contractFault, spiBeginFault, hrdy, encode_spiBegin])
  · exact exec_of_contractFault (i := .spiBegin)
      (by simp [contractFault, spiBeginFault, hrdy, hsession, encode_spiBegin])

/-- Settles O23: as O22, with the session open. -/
theorem spiEndResult : Obligations.SpiEndResult := by
  intro s
  have hdone := spiEndEffect_eq s
  refine ⟨fun hrdy hsession => ?_, fun hrdy => ?_, fun hrdy hsession => ?_, hdone⟩
  · have hlegal : legalIn .spiEnd s = true := by simp [legalIn, hrdy, hsession]
    exact (exec_of_legal hlegal).trans (congrArg _ hdone)
  · exact exec_of_contractFault (i := .spiEnd) (by simp [contractFault, spiEndFault, hrdy, encode_spiEnd])
  · exact exec_of_contractFault (i := .spiEnd) (by simp [contractFault, spiEndFault, hrdy, hsession, encode_spiEnd])

/-- Settles O24: the eight bit periods are `spiXferEffect_eq`; the first check that fails gives the fault. -/
theorem spiXferResult : Obligations.SpiXferResult := by
  intro s out
  have hdone := spiXferEffect_eq out s
  rw [encode_spiXfer] at hdone
  refine ⟨fun hrdy hsession => ?_, fun hrdy => ?_, fun hrdy hsession => ?_, hdone⟩
  · have hlegal : legalIn (.spiXfer out) s = true := by simp [legalIn, hrdy, hsession]
    exact (exec_of_legal hlegal).trans (congrArg _ hdone)
  · exact exec_of_contractFault (i := .spiXfer out) (by simp [contractFault, spiXferFault, hrdy, encode_spiXfer])
  · exact exec_of_contractFault (i := .spiXfer out)
      (by simp [contractFault, spiXferFault, hrdy, hsession, encode_spiXfer])

/-! The received byte -/

/-- The last sample stands in bit 0, the one before it in bit 1, and so on (R85). -/
theorem byteOfSamples_bit (bs : List Level) {n : Nat} (hn : n < 8) :
    (byteOfSamples bs).getLsbD n = bs.reverse.getD n false := by
  induction bs using List.reverseRecOn generalizing n with
  | nil => simp [byteOfSamples]
  | append_singleton bs b ih =>
    rw [byteOfSamples, List.foldl_concat, shiftIn_bit, List.reverse_concat]
    cases n with
    | zero => simp
    | succ n => simpa [hn, byteOfSamples] using ih (Nat.lt_of_succ_lt hn)

/-- A shifted-in bit doubles the byte's value and adds its own; what leaves the byte is lost. -/
theorem shiftIn_toNat (v : Byte) (b : Level) : (shiftIn v b).toNat = (2 * v.toNat + b.toNat) % 256 := by
  revert v b
  decide

/-- Up to eight samples are the binary digits of the byte, the last sample the lowest. -/
theorem byteOfSamples_toNat (bs : List Level) (hlen : bs.length ≤ 8) :
    (byteOfSamples bs).toNat = Nat.ofDigits 2 (bs.reverse.map Bool.toNat) := by
  induction bs using List.reverseRecOn with
  | nil => rfl
  | append_singleton bs b ih =>
    rw [List.length_append, List.length_singleton] at hlen
    have hold : (byteOfSamples bs).toNat < 2 ^ 7 := by
      rw [ih (by omega)]
      refine (Nat.ofDigits_lt_base_pow_length (Nat.lt_succ_self 1) fun d hd => ?_).trans_le
        (Nat.pow_le_pow_right Nat.two_pos (by simpa using Nat.le_of_succ_le_succ hlen))
      obtain ⟨x, -, rfl⟩ := List.mem_map.1 hd
      exact x.toNat_lt
    have hnew := b.toNat_lt
    calc (byteOfSamples (bs ++ [b])).toNat
        = (2 * (byteOfSamples bs).toNat + b.toNat) % 256 := by
          rw [byteOfSamples, List.foldl_concat, shiftIn_toNat, byteOfSamples]
      _ = b.toNat + 2 * (byteOfSamples bs).toNat := by omega
      _ = Nat.ofDigits 2 ((bs ++ [b]).reverse.map Bool.toNat) := by
          rw [ih (by omega), List.reverse_concat, List.map_cons, Nat.ofDigits_cons]

/-- Settles O25: the `k`-th of eight samples is the `(7 - k)`-th from the end. -/
theorem receivedByteOfTheSamples : Obligations.ReceivedByteOfTheSamples := by
  intro bs hlen
  refine ⟨fun k hk => ?_, ?_⟩
  · rw [byteOfSamples_bit bs (by omega), List.getD_reverse _ (by omega), hlen]
    congr 1
    omega
  · match bs, hlen with
    | [a, b, c, d, e, f, g, h], hlen =>
      have hrange : List.range 8 = [0, 1, 2, 3, 4, 5, 6, 7] := rfl
      rw [byteOfSamples_toNat _ hlen.le, hrange]
      simp only [List.reverse_cons, List.reverse_nil, List.nil_append, List.cons_append, List.map_cons, List.map_nil,
        Nat.ofDigits_cons, Nat.ofDigits_nil, List.getD_cons_zero, List.getD_cons_succ, List.sum_cons, List.sum_nil]
      ring

/-! The loopback -/

/-- The echo of one bit period: its sample is the bit it drives. -/
theorem echoes_periodEvents (m d b : Level) (es : List Event) :
    echoes m (periodEvents d b ++ es) = ((b == d) && echoes d es) := rfl

/-- In a transfer whose samples are echoes the samples are the bits sent. -/
theorem samples_eq_of_echoes {ds bs : List Level} {m : Level} (hlen : bs.length = ds.length)
    (hechoes : echoes m (xferEvents ds bs) = true) : bs = ds := by
  induction ds generalizing bs m with
  | nil => exact List.length_eq_zero_iff.1 hlen
  | cons d ds ih =>
    cases bs with
    | nil => cases hlen
    | cons b bs =>
      rw [xferEvents, echoes_periodEvents, Bool.and_eq_true, beq_iff_eq] at hechoes
      obtain ⟨hsample, hrest⟩ := hechoes
      rw [hsample, ih (Nat.succ.inj hlen) hrest]

/-- The bits of a byte in serial order make the byte (R52, R85). -/
theorem byteOfSamples_serialBits (v : Byte) : byteOfSamples (serialBits v) = v := by
  refine BitVec.eq_of_getLsbD_eq fun n hn => ?_
  rw [byteOfSamples_bit _ hn]
  interval_cases n <;> rfl

/-- Settles O26: the samples of the transfer's trace are the bits it sends, and these make the byte. -/
theorem loopbackReturnsTheByteSent : Obligations.LoopbackReturnsTheByteSent := by
  intro s t out m es hrdy hsession hexec htrace hechoes
  have hlegal : legalIn (.spiXfer out) s = true := by simp [legalIn, hrdy, hsession]
  have ht : t = spiXferEffect out s := Host.Outcome.next.inj (hexec.symm.trans (exec_of_legal hlegal))
  rw [ht, spiXferEffect_eq] at htrace
  rw [← List.append_cancel_left htrace] at hechoes
  have hsamples : (drawLevels 8 s.env).1 = serialBits out :=
    samples_eq_of_echoes (drawLevels_length 8 s.env) hechoes
  have hrx : t.spi.rxData = out := by
    rw [ht, spiXferEffect_eq, hsamples]
    exact byteOfSamples_serialBits out
  exact congrArg (BitVec.setWidth 16) hrx

end Sys2Proof.Machine
end

section
/-! The holds of every command (41_spi_master.md R80, 60_exceptions.md R135): a command without a hold appends none, and
in the others a hold follows every drive. -/

namespace Sys2Proof.Machine

variable {s t u : State}

/-! Commands without a hold -/

/-- From `s` to `t` no hold is appended, and `CUR_CMD` and `FAULT` stay: what a command without a hold does
beside its other effects. -/
structure Holdless (s t : State) : Prop where
  curCmd : t.curCmd = s.curCmd
  fault : t.fault = s.fault
  holds : holdCount t.trace = holdCount s.trace

theorem Holdless.refl (s : State) : Holdless s s := ⟨rfl, rfl, rfl⟩

theorem Holdless.trans (h₁ : Holdless s t) (h₂ : Holdless t u) : Holdless s u :=
  ⟨h₂.curCmd.trans h₁.curCmd, h₂.fault.trans h₁.fault, h₂.holds.trans h₁.holds⟩

@[simp] theorem holdCount_nil : holdCount [] = 0 := rfl

@[simp] theorem holdCount_cons (e : Event) (es : List Event) :
    holdCount (e :: es) = holdCount es + if e = .hold then 1 else 0 := by
  simp [holdCount, List.countP_cons]

@[simp] theorem holdCount_append (es fs : List Event) : holdCount (es ++ fs) = holdCount es + holdCount fs :=
  List.countP_append

theorem holdless_pinWrite (p : Pin) (v : Level) (s : State) : Holdless s (pinWrite p v s) := by
  cases p <;> constructor <;> simp

theorem holdless_pinDir (p : Pin) (d : Dir) (s : State) : Holdless s (pinDir p d s) := by
  cases p <;> constructor <;> simp

theorem holdless_spiInitEffect (s : State) : Holdless (acceptWord (encode .spiInit) s) (spiInitEffect s) := by
  rw [spiInitEffect_eq]
  constructor <;> simp [encode_spiInit]

theorem holdless_configureInputs (s : State) : Holdless s (configureInputs s) := by
  unfold configureInputs
  generalize channelPins s.cfg = cs
  induction cs generalizing s with
  | nil => exact .refl s
  | cons c cs ih => exact (holdless_pinDir (.trkIn c) .input s).trans (ih _)

theorem holdless_takeSample (s : State) : Holdless s (takeSample s) := by constructor <;> simp

theorem holdless_firstSample (s : State) : Holdless s (firstSample s) := by constructor <;> simp [firstSample]

theorem holdless_detectChanges (s : State) : Holdless s (detectChanges s) := ⟨rfl, rfl, rfl⟩

theorem holdless_renderSnapshot (s : State) : Holdless s (renderSnapshot s) := by
  constructor <;> simp [renderSnapshot]

theorem holdless_mirrorUpdate (s : State) : Holdless s (mirrorUpdate s) := by
  unfold mirrorUpdate
  split
  · exact (holdless_pinWrite _ _ s).trans (holdless_pinWrite _ _ _)
  · exact .refl s

theorem holdless_configureMirror (s : State) : Holdless s (configureMirror s) := by
  unfold configureMirror
  split
  · exact (holdless_mirrorUpdate s).trans ((holdless_pinDir _ _ _).trans (holdless_pinDir _ _ _))
  · exact .refl s

theorem holdless_applyChanges (s : State) : Holdless s (applyChanges s) := by
  have hpush : Holdless s (pushHistories s) := by constructor <;> simp
  exact hpush.trans (holdless_mirrorUpdate _)

theorem holdless_reactToChanges (s : State) : Holdless s (reactToChanges s) := by
  unfold reactToChanges
  split
  · exact (holdless_applyChanges s).trans (holdless_renderSnapshot _)
  · exact .refl s

theorem holdless_trkInitEffect (s : State) : Holdless (acceptWord (encode .trkInit) s) (trkInitEffect s) := by
  have hseed (u : State) : Holdless u (seedHistories (setChanges 0x00#8 u)) := by constructor <;> simp
  have hrun (u : State) : Holdless u (setTrkRun u) := ⟨rfl, rfl, rfl⟩
  exact (holdless_configureInputs _).trans <| (holdless_firstSample _).trans <| (hseed _).trans <|
    (holdless_renderSnapshot _).trans <| (holdless_configureMirror _).trans (hrun _)

/-- Three commands have a hold; `NOP` does nothing, and `SPI_INIT` and the tracker's commands have none (R135). -/
theorem hold_cases (i : Instr) : i = .nop ∨ i = .spiBegin ∨ i = .spiEnd ∨ (∃ out, i = .spiXfer out) ∨
    i = .spiInit ∨ IsTrkCommand i := by
  have hcases := command_cases i
  rw [isSpiCommand_iff] at hcases
  tauto

theorem holdless_hardwareExec {i : Instr} (hi : i = .spiInit ∨ IsTrkCommand i) :
    Holdless (acceptWord (encode i) s) (hardwareExec i s) := by
  obtain rfl | hi := hi
  · exact holdless_spiInitEffect s
  obtain rfl | rfl | rfl | rfl | rfl | rfl := (isTrkCommand_iff i).1 hi
  · exact holdless_trkInitEffect s
  · exact holdless_takeSample _
  · exact holdless_detectChanges _
  · exact holdless_applyChanges _
  · exact holdless_renderSnapshot _
  · exact (holdless_takeSample _).trans ((holdless_detectChanges _).trans (holdless_reactToChanges _))

/-! Commands with a hold -/

/-- In a transfer every drive is followed at once by a hold (R80). -/
theorem drivesHeld_xferEvents (ds bs : List Level) : drivesHeld (xferEvents ds bs) = true := by
  induction ds generalizing bs with
  | nil => rfl
  | cons d ds ih =>
    cases bs with
    | nil => rfl
    | cons b bs => exact ih bs

/-- A transfer of `n` bits has three holds in the seven events of each (R86). -/
theorem counts_xferEvents {ds bs : List Level} (hlen : bs.length = ds.length) :
    holdCount (xferEvents ds bs) = 3 * ds.length ∧ (xferEvents ds bs).length = 7 * ds.length := by
  induction ds generalizing bs with
  | nil => exact ⟨rfl, rfl⟩
  | cons d ds ih =>
    cases bs with
    | nil => cases hlen
    | cons b bs =>
      obtain ⟨hholds, hevents⟩ := ih (Nat.succ.inj hlen)
      constructor
      · simp [xferEvents, periodEvents, hholds]
        omega
      · simp [xferEvents, periodEvents, hevents]
        omega

/-- Settles O27: the events of a command that does not fault are those of its effect. -/
theorem holdsOfEveryCommand : Obligations.HoldsOfEveryCommand := by
  intro i s t hexec _ hfault
  obtain rfl : t = hardwareExec i s := by
    obtain ⟨-, ht⟩ | ⟨f, rfl⟩ := exec_next_cases hexec
    · exact ht
    · cases hfault
  obtain rfl | rfl | rfl | ⟨out, rfl⟩ | hi := hold_cases i
  · exact ⟨[], by simp [hardwareExec_nop], nofun, by simp, fun _ _ _ => rfl⟩
  · exact ⟨_, congrArg State.trace (spiBeginEffect_eq s), nofun, fun _ => ⟨rfl, rfl⟩, fun _ h => absurd rfl h⟩
  · exact ⟨_, congrArg State.trace (spiEndEffect_eq s), nofun, fun _ => ⟨rfl, rfl⟩, fun _ _ h => absurd rfl h⟩
  · obtain ⟨hholds, hevents⟩ := counts_xferEvents (ds := serialBits out) (drawLevels_length 8 s.env)
    exact ⟨_, congrArg State.trace (spiXferEffect_eq out s),
      fun _ _ => ⟨hholds, hevents, drivesHeld_xferEvents _ _⟩, by simp, fun h => absurd rfl (h out)⟩
  · obtain ⟨es, hes⟩ := (onlyGrows_hardwareExec s i).trace_grows
    have hnone : holdCount es = 0 := by
      have hholds := (holdless_hardwareExec (s := s) hi).holds
      rw [← hes, holdCount_append, acceptWord_trace] at hholds
      omega
    refine ⟨es, hes.symm, ?_, ?_, fun _ _ _ => hnone⟩
    · rintro out rfl
      simp [IsTrkCommand] at hi
    · rintro (rfl | rfl) <;> simp [IsTrkCommand] at hi

end Sys2Proof.Machine
end

section
/-! A running command, cycle by cycle (41_spi_master.md R79, R94, 70_reset_and_hazards.md R150): its holds keep every
pin, and its cycles together are the whole command. -/

namespace Sys2Proof.Machine

variable {s t : State}

/-! A cycle of a hold -/

/-- The latches and directions of the SPI unit's pins (R34). -/
def SpiUnit.pins (u : SpiUnit) : (Level × Level × Level) × (Dir × Dir × Dir × Dir) :=
  ((u.csLat, u.sckLat, u.mosiLat), (u.csDir, u.sckDir, u.mosiDir, u.misoDir))

/-- From `s` to `t` no pin changes, no event is appended and nothing is drawn. -/
structure PinsKept (s t : State) : Prop where
  spi : t.spi.pins = s.spi.pins
  trk : t.trk = s.trk
  trace : t.trace = s.trace
  env : t.env = s.env

/-- The pins of the two units are all the pins. -/
theorem PinsKept.pin (h : PinsKept s t) (p : Pin) : pinDirOf p t = pinDirOf p s ∧ pinLatOf p t = pinLatOf p s := by
  obtain ⟨hspi, htrk, -, -⟩ := h
  simp only [SpiUnit.pins, Prod.mk.injEq] at hspi
  cases p <;> simp [pinDirOf, pinLatOf, hspi, htrk]

theorem pinsKept_toIdle (s : State) : PinsKept s (toIdle s) := ⟨rfl, rfl, rfl, rfl⟩

/-- The end of a phase's hold moves shift registers and counters only. -/
theorem pinsKept_phaseDone (s : State) : PinsKept s (phaseDone (setHoldCnt 0#16 s)) := by
  have hphase : (setHoldCnt 0#16 s).spi.phase = s.spi.phase := rfl
  unfold phaseDone
  cases hp : s.spi.phase <;> rw [hp] at hphase <;> rw [hphase]
  case drive | high => exact ⟨rfl, rfl, rfl, rfl⟩
  case low =>
    dsimp only
    split <;> constructor <;> simp [SpiUnit.pins, toIdle, setHoldCnt]

/-- A cycle of a hold keeps the pins when the end of the hold does. -/
theorem pinsKept_countHold {done : State → State} (hdone : PinsKept s (done (setHoldCnt 0#16 s))) :
    PinsKept s (countHold done s) := by
  rw [countHold_eq]
  split
  · exact hdone
  · exact ⟨rfl, rfl, rfl, rfl⟩

theorem pinsKept_advance (hrun : s.seq = .run) (hcnt : s.spi.holdCnt ≠ 0#16) : PinsKept s (advance s) := by
  have hadvance : advance s = runCycle s := by simp [advance, hrun]
  rw [hadvance, runCycle]
  split
  case h_1 | h_2 => exact pinsKept_countHold ⟨rfl, rfl, rfl, rfl⟩
  case h_3 =>
    rw [xferCycle, if_neg hcnt]
    exact pinsKept_countHold (pinsKept_phaseDone s)
  all_goals exact pinsKept_toIdle s

/-- Settles O56: a cycle of a hold counts or ends the hold, and neither touches a pin. -/
theorem holdKeepsEveryPin : Obligations.HoldKeepsEveryPin := by
  intro s hrun hcnt
  have hkept := pinsKept_advance hrun hcnt
  exact ⟨hkept.pin, hkept.trace, hkept.env⟩

/-! A whole hold -/

theorem advanceN_add (m n : Nat) (s : State) : advanceN (m + n) s = advanceN n (advanceN m s) := by
  induction m generalizing s with
  | zero => rw [Nat.zero_add, advanceN]
  | succ m ih => rw [Nat.succ_add, advanceN, ih, advanceN]

/-- A hold of `n` cycles ends in its last one, with the counter at 0. -/
theorem advanceN_countHold {done : State → State}
    (hcycle : ∀ c ≠ 0#16, advance (setHoldCnt c s) = countHold done (setHoldCnt c s)) {n : Nat} {c : BitVec 16}
    (hn : n ≠ 0) (hc : c.toNat = n) : advanceN n (setHoldCnt c s) = done (setHoldCnt 0#16 s) := by
  induction n generalizing c with
  | zero => exact absurd rfl hn
  | succ n ih =>
    have hcnt : (setHoldCnt c s).spi.holdCnt = c := rfl
    rw [advanceN, hcycle c (by bv_omega), countHold_eq, hcnt]
    by_cases hlast : n = 0
    · subst hlast
      rw [if_pos (by omega)]
      rfl
    · rw [if_neg (by omega)]
      exact ih hlast (by bv_omega)

/-- A started hold lasts `P_SETTLE_CYCLES` cycles and ends as the hold of the whole command does, then `done`
follows (R94). -/
theorem advanceN_startHold {done : State → State} (hwf : s.cfg.wf = true)
    (hcycle : ∀ c ≠ 0#16, advance (setHoldCnt c (startHold s)) = countHold done (setHoldCnt c (startHold s))) :
    advanceN s.cfg.settleCycles (startHold s) = done (hold s) := by
  obtain ⟨-, -, -, -, ⟨hpos, -⟩, -⟩ := s.cfg.wf_iff.1 hwf
  exact advanceN_countHold (s := startHold s) hcycle (Nat.ne_zero_of_lt hpos) (settleCycles_toNat hwf)

/-! The bit periods of a running transfer -/

/-- A transfer of `out` runs, with the configuration `cfg`, and no hold of it is counting. -/
structure Transferring (cfg : Cfg) (out : Byte) (s : State) : Prop where
  wf : cfg.wf = true
  cfg : s.cfg = cfg
  running : s.seq = .run
  command : decode s.curCmd = .command (.spiXfer out)
  counted : s.spi.holdCnt = 0#16

section
variable {cfg : Cfg} {out : Byte}

theorem Transferring.runPhase (h : Transferring cfg out s) (p : Phase) : Transferring cfg out (runPhase p s) := by
  obtain ⟨hwf, hcfg, hrun, hcmd, -⟩ := h
  cases p <;> constructor <;> simp [Machine.runPhase, phaseAction, *]

theorem Transferring.setBitCnt (h : Transferring cfg out s) (n : BitVec 3) : Transferring cfg out (setBitCnt n s) :=
  { h with }

theorem Transferring.bitPeriod (h : Transferring cfg out s) (n : BitVec 3) :
    Transferring cfg out (bitPeriod n s) :=
  { ((((h.setBitCnt n).runPhase .drive).runPhase .high).runPhase .low) with }

theorem advance_of_transfer (hrun : s.seq = .run) (hcmd : decode s.curCmd = .command (.spiXfer out)) :
    advance s = xferCycle s := by
  simp [advance, hrun, runCycle, hcmd]

/-- The cycles of a phase are its action and its hold, and then the phase is done (R94). -/
theorem advanceN_phase (h : Transferring cfg out s) (p : Phase) :
    advanceN (1 + cfg.settleCycles) (setPhase p s) = phaseDone (runPhase p s) := by
  obtain ⟨hwf, hcfg, hrun, hcmd, hcnt⟩ := h
  generalize ha : phaseAction p (setPhase p s) = a
  have hframe : a.cfg = s.cfg ∧ a.seq = s.seq ∧ a.curCmd = s.curCmd := by
    subst ha
    cases p <;> simp [phaseAction]
  obtain ⟨hacfg, hseq, hcur⟩ := hframe
  rw [hcfg] at hacfg
  have haction : advance (setPhase p s) = startHold a := by
    rw [advance_of_transfer (s := setPhase p s) hrun hcmd, ← ha]
    exact if_pos hcnt
  have hcycle (c : BitVec 16) (hc : c ≠ 0#16) :
      advance (setHoldCnt c (startHold a)) = countHold phaseDone (setHoldCnt c (startHold a)) := by
    rw [advance_of_transfer (s := setHoldCnt c (startHold a)) (hseq.trans hrun) (hcur ▸ hcmd)]
    exact if_neg hc
  calc advanceN (1 + cfg.settleCycles) (setPhase p s)
      = advanceN a.cfg.settleCycles (startHold a) := by rw [Nat.add_comm, advanceN, haction, hacfg]
    _ = phaseDone (hold a) := advanceN_startHold (hacfg.symm ▸ hwf) hcycle
    _ = phaseDone (runPhase p s) := by rw [← ha, Machine.runPhase]

/-- The cycles of a bit period are those of its three phases; then the next period begins, or the transfer commits
(R94). -/
theorem advanceN_bitPeriod (h : Transferring cfg out s) (n : BitVec 3) :
    advanceN (3 * (1 + cfg.settleCycles)) (setPhase .drive (setBitCnt n s)) =
      if n = 0#3 then toIdle (commitRx (bitPeriod n s))
      else setPhase .drive (setBitCnt (n - 1#3) (bitPeriod n s)) := by
  have hbit := h.setBitCnt n
  have hdrive := hbit.runPhase .drive
  have hhigh := hdrive.runPhase .high
  have hsplit : 3 * (1 + cfg.settleCycles) =
      1 + cfg.settleCycles + (1 + cfg.settleCycles) + (1 + cfg.settleCycles) := by omega
  have hdriveDone : phaseDone (runPhase .drive (setBitCnt n s)) =
      setPhase .high (runPhase .drive (setBitCnt n s)) := rfl
  have hhighDone : phaseDone (runPhase .high (runPhase .drive (setBitCnt n s))) =
      setPhase .low (runPhase .high (runPhase .drive (setBitCnt n s))) := rfl
  rw [hsplit, advanceN_add _ (1 + cfg.settleCycles), advanceN_add (1 + cfg.settleCycles), advanceN_phase hbit,
    hdriveDone, advanceN_phase hdrive, hhighDone, advanceN_phase hhigh]
  rfl

/-- The cycles of the bit periods from index `n` on are the bit periods, and then the transfer commits (R94). -/
theorem advanceN_bitPeriods (h : Transferring cfg out s) {n : Nat} (hn : n < 8) :
    advanceN ((n + 1) * (3 * (1 + cfg.settleCycles))) (setPhase .drive (setBitCnt (BitVec.ofNat 3 n) s)) =
      toIdle (commitRx (bitPeriods (n + 1) s)) := by
  induction n generalizing s with
  | zero => rw [Nat.zero_add, Nat.one_mul, advanceN_bitPeriod h, if_pos rfl, bitPeriods, bitPeriods]
  | succ n ih =>
    have hmore : BitVec.ofNat 3 (n + 1) ≠ 0#3 := by bv_omega
    have hnext : BitVec.ofNat 3 (n + 1) - 1#3 = BitVec.ofNat 3 n := by bv_omega
    rw [Nat.succ_mul, Nat.add_comm, advanceN_add, advanceN_bitPeriod h, if_neg hmore, hnext,
      ih (h.bitPeriod _) (by omega), ← bitPeriods]

end

/-! Whole commands -/

/-- The cycles of a transfer are the whole transfer (R94, R150). -/
theorem advanceN_spiXferStart (hwf : s.cfg.wf = true) (hidle : s.seq = .idle) (hcnt : s.spi.holdCnt = 0#16)
    (out : Byte) : advanceN (24 * (1 + s.cfg.settleCycles)) (spiXferStart out s) = spiXferEffect out s := by
  have hbegun : Transferring s.cfg out (setSeq .run (loadShift out (acceptWord (encode (.spiXfer out)) s))) :=
    ⟨hwf, rfl, rfl, decode_encode _, hcnt⟩
  have hcycles := advanceN_bitPeriods hbegun (show 7 < 8 by decide)
  rw [← Nat.mul_assoc] at hcycles
  refine hcycles.trans ?_
  rw [spiXferEffect, bitPeriods_succ_eq, bitPeriods_succ_eq]
  simp only [toIdle, setSeq, commitRx, loadShift, acceptWord, hidle]

theorem advance_of_spiBegin (hrun : s.seq = .run) (hcmd : decode s.curCmd = .command .spiBegin) :
    advance s = countHold (fun s => toIdle (setSession true s)) s := by
  simp [advance, hrun, runCycle, hcmd]

theorem advance_of_spiEnd (hrun : s.seq = .run) (hcmd : decode s.curCmd = .command .spiEnd) :
    advance s = countHold (fun s => toIdle (setSession false s)) s := by
  simp [advance, hrun, runCycle, hcmd]

/-- The one hold of `SPI_BEGIN` and `SPI_END`, at whose end `SESSION` takes the value `v` (R94). -/
theorem advanceN_sessionHold {v : Bool} (hwf : s.cfg.wf = true) (hidle : s.seq = .idle)
    (hadvance : ∀ t : State, t.seq = .run → t.curCmd = s.curCmd →
      advance t = countHold (fun s => toIdle (setSession v s)) t) :
    advanceN s.cfg.settleCycles (startHold (setSeq .run s)) = setSession v (hold s) := by
  have hcycles := advanceN_startHold (s := setSeq .run s) hwf fun c _ =>
    hadvance (setHoldCnt c (startHold (setSeq .run s))) rfl rfl
  refine hcycles.trans ?_
  obtain ⟨cfg, seq, w, spi, trk, f, tr, env, ho⟩ := s
  cases hidle
  rfl

/-- A command without a hold is all in its acceptance cycle (R94, R150). -/
theorem acceptEffect_of_holdless {i : Instr} (hi : i = .spiInit ∨ IsTrkCommand i) (s : State) :
    acceptEffect i s = hardwareExec i s ∧ cycleCount i s.cfg.settleCycles = 1 := by
  rw [isTrkCommand_iff] at hi
  obtain rfl | rfl | rfl | rfl | rfl | rfl | rfl := hi <;> exact ⟨rfl, rfl⟩

/-- The cycles of a command after its acceptance are the whole command (R94, R150). -/
theorem advanceN_acceptEffect {i : Instr} (hwf : s.cfg.wf = true) (hidle : s.seq = .idle)
    (hcnt : s.spi.holdCnt = 0#16) (hi : i ≠ .nop) :
    advanceN (cycleCount i s.cfg.settleCycles - 1) (acceptEffect i s) = hardwareExec i s := by
  obtain rfl | rfl | rfl | ⟨out, rfl⟩ | hi := hold_cases i
  · exact absurd rfl hi
  · rw [cycleCount, Nat.add_sub_cancel_left]
    exact advanceN_sessionHold (s := pinWrite .spiCs s.cfg.csActive (acceptWord (encode .spiBegin) s)) hwf hidle
      fun t hrun hcmd => advance_of_spiBegin hrun (hcmd ▸ decode_encode .spiBegin)
  · rw [cycleCount, Nat.add_sub_cancel_left]
    exact advanceN_sessionHold (s := pinWrite .spiCs (!s.cfg.csActive) (acceptWord (encode .spiEnd) s)) hwf hidle
      fun t hrun hcmd => advance_of_spiEnd hrun (hcmd ▸ decode_encode .spiEnd)
  · rw [cycleCount, Nat.add_sub_cancel_left]
    exact advanceN_spiXferStart hwf hidle hcnt out
  · obtain ⟨haccept, hcount⟩ := acceptEffect_of_holdless hi s
    rw [hcount, haccept, Nat.sub_self, advanceN]

/-- The acceptance cycle puts the command's word in `CUR_CMD` and leaves `FAULT` (R94). -/
theorem acceptEffect_curCmd_fault (i : Instr) (s : State) :
    (acceptEffect i s).curCmd = encode i ∧ (acceptEffect i s).fault = s.fault := by
  obtain rfl | rfl | rfl | ⟨out, rfl⟩ | hi := hold_cases i
  case inr.inr.inr.inr =>
    have hkept := holdless_hardwareExec (s := s) hi
    rw [(acceptEffect_of_holdless hi s).1]
    exact ⟨hkept.curCmd, hkept.fault⟩
  all_goals exact ⟨rfl, rfl⟩

/-- Settles O53: after the acceptance cycle the sequencer has as many cycles left as R150 says, runs in all but the last
of them, and together they are the whole command. -/
theorem cycleLevelRefinesTheCommandStep : Obligations.CycleLevelRefinesTheCommandStep := by
  intro i s hwf hidle hcnt hfault hlegal
  obtain ⟨hcmd, hkept⟩ := acceptEffect_curCmd_fault i s
  have hexec := exec_of_legal hlegal
  refine ⟨acceptEffect i s, startCommand_of_legal hlegal, hkept.trans hfault, hcmd, fun hi => ?_, ?_,
    fun k hk => ?_, ?_⟩
  · rw [hexec, advanceN_acceptEffect hwf hidle hcnt hi]
  · rintro rfl
    rfl
  · obtain ⟨haccept, hleft⟩ := acceptEffect_of_one_lt_cycleCount (i := i) hwf hcnt (by omega)
    have hbefore := runsUncommitted_advanceN hwf haccept (k := k) (by omega)
    simp [busy, hbefore.running]
  · have hend : (advanceN (cycleCount i s.cfg.settleCycles - 1) (acceptEffect i s)).seq = .idle := by
      by_cases hi : i = .nop
      · subst hi
        exact hidle
      · rw [advanceN_acceptEffect hwf hidle hcnt hi, hardwareExec_seq, hidle]
    simp [busy, hend]

end Sys2Proof.Machine
end

section
/-! The tracker's pure functions (42_signal_tracker.md R96 to R100) and the codes of the display sink (R109). -/

namespace Sys2Proof.Machine

/-! The change mask -/

/-- A lane of the change mask is the event of its channel's policy; a lane without a channel is 0 (R97). -/
theorem detect_bit (cfg : Cfg) (previous current : Byte) (c : Fin 8) :
    (detect cfg previous current).getLsbD c.val =
      match cfg.channels[c.val]? with
      | some ch => event ch.policy (previous.getLsbD c.val) (current.getLsbD c.val)
      | none => false := by
  have hany : (anyMask cfg).getLsbD c.val = decide (cfg.channels[c.val]?.map Chan.policy = some .any) :=
    policyMask_bit .any cfg.channels c.val c.isLt
  have hfall : (fallMask cfg).getLsbD c.val = decide (cfg.channels[c.val]?.map Chan.policy = some .fall) :=
    policyMask_bit .fall cfg.channels c.val c.isLt
  rw [detect, BitVec.getLsbD_or, BitVec.getLsbD_and, BitVec.getLsbD_and, hany, hfall]
  cases cfg.channels[c.val]? with
  | none => simp
  | some ch => cases hp : ch.policy <;> simp [event, hp]

/-- Settles O29: the two masks of R97 select, lane by lane, the event of the lane's policy. -/
theorem detectIsTheEventOfEveryLane : Obligations.DetectIsTheEventOfEveryLane :=
  ⟨fun _ _ => rfl, fun _ _ => rfl, detect_bit⟩

/-! Histories -/

theorem onesWord_toNat {width : Nat} (hwidth : width ≤ 16) : (onesWord width).toNat = 2 ^ width - 1 := by
  have hpos := Nat.two_pow_pos width
  have hle : 2 ^ width ≤ 2 ^ 16 := Nat.pow_le_pow_right Nat.two_pos hwidth
  rw [onesWord, BitVec.toNat_ofNat, Nat.mod_eq_of_lt (by omega)]

/-- A level inserted below a shifted word adds to it: the shift leaves bit 0 free. -/
theorem shiftLeft_or_levelWord_toNat (h : Word) (l : Level) :
    ((h <<< 1) ||| levelWord l).toNat = (2 * h.toNat + l.toNat) % 2 ^ 16 := by
  have hfree : (h <<< 1) &&& levelWord l = 0#16 := by
    refine BitVec.eq_of_getLsbD_eq fun n hn => ?_
    cases l <;> cases n <;> simp [levelWord]
  have hlevel : (levelWord l).toNat = l.toNat := by cases l <;> rfl
  rw [← BitVec.add_eq_or_of_and_eq_zero _ _ hfree, BitVec.toNat_add, BitVec.toNat_shiftLeft, hlevel, Nat.shiftLeft_eq]
  omega

/-- A history update in numbers (R99). -/
theorem push_toNat {width : Nat} (hwidth : width ≤ 16) (h : Word) (l : Level) :
    (push h l width).toNat = (2 * h.toNat + l.toNat) % 2 ^ width := by
  rw [push, BitVec.toNat_and, onesWord_toNat hwidth, Nat.and_two_pow_sub_one_eq_mod, shiftLeft_or_levelWord_toNat,
    Nat.mod_mod_of_dvd _ (Nat.pow_dvd_pow 2 hwidth)]

/-- A seed in numbers (R100). -/
theorem seed_toNat {width : Nat} (hwidth : width ≤ 16) (l : Level) :
    (seed l width).toNat = if l then 2 ^ width - 1 else 0 := by
  cases l
  · rfl
  · exact onesWord_toNat hwidth

/-- Settles O30: `push_toNat` and `seed_toNat`. -/
theorem pushAndSeedKeepTheWidth : Obligations.PushAndSeedKeepTheWidth :=
  fun h l _ hwidth => ⟨push_toNat hwidth h l, seed_toNat hwidth l⟩

/-! The display codes -/

theorem displayCodesFrom_length (h : Word) (y : Level) (n : Nat) : (displayCodesFrom h y n).length = n := by
  induction n generalizing y with
  | zero => rfl
  | succ n ih => exact congrArg Nat.succ (ih _)

/-- The symbol `j` of the `n` lowest bits shows bit `n - 1 - j` beside the bit above it, `y` above the first (R109). -/
theorem displayCodesFrom_getElem? (h : Word) (y : Level) {n j : Nat} (hj : j < n) :
    (displayCodesFrom h y n)[j]? =
      some (displayCode (if j = 0 then y else h.getLsbD (n - j)) (h.getLsbD (n - 1 - j))) := by
  induction n generalizing y j with
  | zero => exact absurd hj (Nat.not_lt_zero j)
  | succ n ih =>
    cases j with
    | zero => rfl
    | succ j =>
      have hbit : n + 1 - 1 - (j + 1) = n - 1 - j := by omega
      rw [displayCodesFrom, List.getElem?_cons_succ, ih _ (Nat.lt_of_succ_lt_succ hj), if_neg (Nat.succ_ne_zero j),
        Nat.add_sub_add_right, hbit]
      cases j <;> rfl

/-- Settles O42: the bit above the first symbol's is taken to be its own. -/
theorem displayCodesOfASnapshot : Obligations.DisplayCodesOfASnapshot := by
  intro h width
  refine ⟨displayCodesFrom_length h _ width, fun j hj => ?_⟩
  rw [displayCodes, displayCodesFrom_getElem? h _ hj, displayCode, apply_ite h.getLsbD]

end Sys2Proof.Machine
end

section
/-! The tracker unit's commands as whole commands (42_signal_tracker.md R101 to R108): their results and faults, channel
by channel. -/

namespace Sys2Proof.Machine

variable {s : State} {c : Fin 8} {ch : Chan}

/-! The words of the six commands (R67, R71) -/

theorem encode_trkInit : encode .trkInit = 0x0005#16 := by decide
theorem encode_trkSample : encode .trkSample = 0x0006#16 := by decide
theorem encode_trkDetect : encode .trkDetect = 0x0007#16 := by decide
theorem encode_trkApply : encode .trkApply = 0x0008#16 := by decide
theorem encode_trkRender : encode .trkRender = 0x0009#16 := by decide
theorem encode_trkPoll : encode .trkPoll = 0x000A#16 := by decide

/-! The tracker's state machine -/

/-- A command that is legal only while the tracker runs (R102): every command of the unit but `TRK_INIT`. -/
def IsRunningCommand (i : Instr) : Prop := i ∈ [Instr.trkSample, .trkDetect, .trkApply, .trkRender, .trkPoll]

theorem isRunningCommand_iff (i : Instr) : IsRunningCommand i ↔
    i = .trkSample ∨ i = .trkDetect ∨ i = .trkApply ∨ i = .trkRender ∨ i = .trkPoll := by
  simp [IsRunningCommand]

theorem isTrkCommand_iff_trkInit_or_isRunningCommand (i : Instr) :
    IsTrkCommand i ↔ i = .trkInit ∨ IsRunningCommand i := by
  simp [IsTrkCommand, IsRunningCommand]

theorem legalIn_of_isRunningCommand {i : Instr} (hi : IsRunningCommand i) (s : State) : legalIn i s = s.trk.trkRun := by
  obtain rfl | rfl | rfl | rfl | rfl := (isRunningCommand_iff i).1 hi <;> rfl

theorem contractFault_of_isRunningCommand {i : Instr} (hi : IsRunningCommand i) (s : State) :
    contractFault i s = notRunningFault (encode i) s := by
  obtain rfl | rfl | rfl | rfl | rfl := (isRunningCommand_iff i).1 hi <;> rfl

/-- While the tracker runs the command runs as the hardware runs it; before, it faults with its own word (R121). -/
theorem exec_of_isRunningCommand {i : Instr} (hi : IsRunningCommand i) (s : State) :
    (s.trk.trkRun = true → exec i s = .next (hardwareExec i s)) ∧
      (s.trk.trkRun = false → exec i s = .next { s with fault := some (.trackerNotRunning (encode i)) }) := by
  refine ⟨fun hrun => ?_, fun hstop => ?_⟩
  · exact exec_of_legal ((legalIn_of_isRunningCommand hi s).trans hrun)
  · refine exec_of_contractFault ?_
    rw [contractFault_of_isRunningCommand hi]
    simp [notRunningFault, hstop]

/-- Settles O46: before `TRK_INIT` the other commands of the unit fault, and those of the SPI unit, `NOP` and a fault
leave the tracker. -/
theorem trackerRunsOnlyAfterTrkInit : Obligations.TrackerRunsOnlyAfterTrkInit := by
  intro i s t hstop hexec
  refine ⟨fun hrun => ?_, fun hi => ?_⟩
  · have hstays : t.trk = s.trk → i = .trkInit := fun htrk => by simp [htrk, hstop] at hrun
    obtain ⟨hlegal, rfl⟩ | ⟨f, rfl⟩ := exec_next_cases hexec
    · obtain rfl | hi | hi := command_cases i
      · exact hstays rfl
      · exact hstays (spiFrame_hardwareExec s hi).trk
      · refine ((isTrkCommand_iff_trkInit_or_isRunningCommand i).1 hi).resolve_right fun hi => ?_
        rw [legalIn_of_isRunningCommand hi, hstop] at hlegal
        cases hlegal
    · exact hstays rfl
  · exact Host.Outcome.next.inj (hexec.symm.trans ((exec_of_isRunningCommand hi s).2 hstop))

/-! Sample and detection -/

/-- The masked sample a command draws (R103, R104). -/
def maskedSample (s : State) : Byte := (drawTrk s.env).1 &&& chMask s.cfg

/-- The whole effect of `TRK_SAMPLE` (R104). -/
theorem trkSampleEffect_eq (s : State) : trkSampleEffect s = { s with
    curCmd := 0x0006#16
    trk := { s.trk with prev := s.trk.cur, cur := maskedSample s }
    env := (drawTrk s.env).2
    trace := s.trace ++ [.sampleAll (drawTrk s.env).1] } := by
  rw [← encode_trkSample]
  rfl

/-- Settles O32: `TRK_SAMPLE` is legal while the tracker runs, and its effect is `trkSampleEffect_eq`. -/
theorem trkSampleResult : Obligations.TrkSampleResult := by
  intro s
  have hdone := trkSampleEffect_eq s
  obtain ⟨hruns, hfaults⟩ := exec_of_isRunningCommand (i := .trkSample) (by simp [IsRunningCommand]) s
  rw [encode_trkSample] at hfaults
  exact ⟨fun hrun => (hruns hrun).trans (congrArg _ hdone), hfaults, hdone⟩

/-- The whole effect of `TRK_DETECT` (R105). -/
theorem trkDetectEffect_eq (s : State) : trkDetectEffect s = { s with
    curCmd := 0x0007#16
    trk := { s.trk with
      changes := detect s.cfg s.trk.prev s.trk.cur, chg := decide (detect s.cfg s.trk.prev s.trk.cur ≠ 0#8) } } := by
  rw [← encode_trkDetect]
  rfl

/-- Settles O33: as O32, with `trkDetectEffect_eq`. -/
theorem trkDetectResult : Obligations.TrkDetectResult := by
  intro s
  have hdone := trkDetectEffect_eq s
  obtain ⟨hruns, hfaults⟩ := exec_of_isRunningCommand (i := .trkDetect) (by simp [IsRunningCommand]) s
  rw [encode_trkDetect] at hfaults
  exact ⟨fun hrun => (hruns hrun).trans (congrArg _ hdone), hfaults, hdone⟩

/-! Render -/

/-- A register of a file copied from another: the other's where the channel exists, else the old one (R107). -/
theorem updateBank_copy_get (cfg : Cfg) (source bank : Vector Word 8) (c : Fin 8) :
    (updateBank cfg (fun c _ _ => source[c]) bank)[c] = if c.val < cfg.nch then source[c] else bank[c] := by
  rw [updateBank_get, Cfg.nch]
  by_cases hc : c.val < cfg.channels.length
  · rw [List.getElem?_eq_getElem hc, if_pos hc]
  · rw [List.getElem?_eq_none (by omega), if_neg hc]

theorem renderSnapshot_rend_get (s : State) (c : Fin 8) :
    (renderSnapshot s).trk.rend[c] = if c.val < s.cfg.nch then s.trk.hist[c] else s.trk.rend[c] := by
  rw [renderSnapshot_rend, updateBank_copy_get]

/-- Settles O35: the copy is `renderSnapshot_rend_get`, and nothing but the snapshot and `REND_VALID` is written. -/
theorem trkRenderResult : Obligations.TrkRenderResult := by
  intro s t
  obtain ⟨hruns, hfaults⟩ := exec_of_isRunningCommand (i := .trkRender) (by simp [IsRunningCommand]) s
  rw [encode_trkRender] at hfaults
  have hrend (c : Fin 8) : t.trk.rend[c] = if c.val < s.cfg.nch then s.trk.hist[c] else s.trk.rend[c] :=
    renderSnapshot_rend_get (acceptWord (encode .trkRender) s) c
  refine ⟨hruns, hfaults, fun c hc => ?_, fun c hc => ?_, ?_⟩
  · rw [hrend, if_pos hc]
  · rw [hrend, if_neg (by omega)]
  · rw [← encode_trkRender]
    rfl

/-! The change mask applied -/

/-- The number of a recorded level (R98). -/
theorem newlevel_toNat (p : EdgePolicy) (c : Nat) (current : Byte) :
    (newlevel p c current).toNat = if p = .any then (current.getLsbD c).toNat else 0 := by
  cases p <;> rfl

theorem lt_nch_of_getElem? {cfg : Cfg} {c : Nat} (hch : cfg.channels[c]? = some ch) : c < cfg.nch :=
  (List.getElem?_eq_some_iff.1 hch).1

/-- A flagged channel's history takes its new level, that of an unflagged one stays (R106). -/
theorem pushHistories_hist_get (hch : s.cfg.channels[c.val]? = some ch) :
    (pushHistories s).trk.hist[c] = if s.trk.changes.getLsbD c.val then
      push s.trk.hist[c] (newlevel ch.policy c.val s.trk.cur) ch.width else s.trk.hist[c] := by
  rw [pushHistories_hist, updateBank_get, hch]

/-- The history of an unflagged channel stays, and so does the slot of a channel that does not exist (R31, D37). -/
theorem pushHistories_hist_get_of_kept (hkept : s.cfg.nch ≤ c.val ∨ s.trk.changes.getLsbD c.val = false) :
    (pushHistories s).trk.hist[c] = s.trk.hist[c] := by
  cases hch : s.cfg.channels[c.val]? with
  | none => rw [pushHistories_hist, updateBank_get, hch]
  | some ch =>
    have hflag := hkept.resolve_left (Nat.not_le.2 (lt_nch_of_getElem? hch))
    rw [pushHistories_hist_get hch, hflag, if_neg Bool.false_ne_true]

theorem width_le_of_wf {cfg : Cfg} (hwf : cfg.wf = true) {c : Nat} (hch : cfg.channels[c]? = some ch) :
    ch.width ≤ 16 :=
  widthOf_of_getElem? hch ▸ widthOf_le hwf c

/-- `pushHistories_hist_get` in numbers. -/
theorem pushHistories_hist_toNat (hwf : s.cfg.wf = true) (hch : s.cfg.channels[c.val]? = some ch) :
    (pushHistories s).trk.hist[c].toNat = if s.trk.changes.getLsbD c.val then
      (2 * s.trk.hist[c].toNat + (if ch.policy = .any then (s.trk.cur.getLsbD c.val).toNat else 0)) % 2 ^ ch.width
      else s.trk.hist[c].toNat := by
  rw [pushHistories_hist_get hch, apply_ite BitVec.toNat, push_toNat (width_le_of_wf hwf hch), newlevel_toNat]

/-- The mirror's drives of the newest recorded levels, latches first (R101). -/
theorem mirrorUpdate_eq_fields (s : State) : mirrorUpdate s = { s with
    trk := { s.trk with
      out0Lat := if s.cfg.mirrorEn then newestBit s.cfg.mirrorSrc0 s else s.trk.out0Lat
      out1Lat := if s.cfg.mirrorEn then newestBit s.cfg.mirrorSrc1 s else s.trk.out1Lat }
    trace := s.trace ++ (if s.cfg.mirrorEn then [.drive .trkOut0 (newestBit s.cfg.mirrorSrc0 s),
      .drive .trkOut1 (newestBit s.cfg.mirrorSrc1 s)] else []) } := by
  rw [mirrorUpdate_eq]
  split <;> simp

/-- The shifted histories are the only registers the application of a mask writes; the mirror follows them (R106). -/
theorem applyChanges_eq (s : State) : applyChanges s = { s with
    trk := { s.trk with
      hist := (pushHistories s).trk.hist
      out0Lat := if s.cfg.mirrorEn then newestBit s.cfg.mirrorSrc0 (pushHistories s) else s.trk.out0Lat
      out1Lat := if s.cfg.mirrorEn then newestBit s.cfg.mirrorSrc1 (pushHistories s) else s.trk.out1Lat }
    trace := s.trace ++ (if s.cfg.mirrorEn then [.drive .trkOut0 (newestBit s.cfg.mirrorSrc0 (pushHistories s)),
      .drive .trkOut1 (newestBit s.cfg.mirrorSrc1 (pushHistories s))] else []) } :=
  mirrorUpdate_eq_fields (pushHistories s)

/-- Settles O34: the histories are those of `pushHistories`, and the mirror reads its levels from them. -/
theorem trkApplyResult : Obligations.TrkApplyResult := by
  intro s t
  obtain ⟨hruns, hfaults⟩ := exec_of_isRunningCommand (i := .trkApply) (by simp [IsRunningCommand]) s
  rw [encode_trkApply] at hfaults
  have ht : t = applyChanges (acceptWord 0x0008#16 s) := by
    rw [← encode_trkApply]
    rfl
  rw [applyChanges_eq] at ht
  have hhist : t.trk.hist = (pushHistories s).trk.hist := by rw [ht]; rfl
  refine ⟨hruns, hfaults, fun hwf => ⟨fun c ch hch hflag => ?_, fun c hkept => ?_, ?_⟩⟩
  · rw [hhist, pushHistories_hist_toNat hwf hch, if_pos hflag]
  · rw [hhist, pushHistories_hist_get_of_kept hkept]
  · clear_value t
    subst ht
    exact ⟨rfl, rfl, rfl⟩

end Sys2Proof.Machine
end

section
/-! The polling iteration `TRK_POLL` as a whole command (42_signal_tracker.md R108), with a change and without one. -/

namespace Sys2Proof.Machine

variable {s : State}

/-- An iteration without a change ends with the detection (R108). -/
theorem reactToChanges_of_unchanged (h : s.trk.changes = 0x00#8) : reactToChanges s = s := if_neg (not_not.2 h)

/-- An iteration with a change shifts the flagged histories, and the mirror and the snapshot follow them (R108). -/
theorem reactToChanges_of_changed (h : s.trk.changes ≠ 0x00#8) : reactToChanges s = { s with
    trk := { s.trk with
      hist := (pushHistories s).trk.hist, rend := (renderSnapshot (pushHistories s)).trk.rend, rendValid := true
      out0Lat := if s.cfg.mirrorEn then newestBit s.cfg.mirrorSrc0 (pushHistories s) else s.trk.out0Lat
      out1Lat := if s.cfg.mirrorEn then newestBit s.cfg.mirrorSrc1 (pushHistories s) else s.trk.out1Lat }
    trace := s.trace ++ (if s.cfg.mirrorEn then [.drive .trkOut0 (newestBit s.cfg.mirrorSrc0 (pushHistories s)),
      .drive .trkOut1 (newestBit s.cfg.mirrorSrc1 (pushHistories s))] else []) } := by
  rw [reactToChanges, if_pos h, applyChanges_eq]
  rfl

/-- The reaction leaves the samples, the mask and the inputs still to come. -/
theorem reactToChanges_keeps (s : State) : (reactToChanges s).trk.prev = s.trk.prev ∧
    (reactToChanges s).trk.cur = s.trk.cur ∧ (reactToChanges s).trk.changes = s.trk.changes ∧
    (reactToChanges s).trk.chg = s.trk.chg ∧ (reactToChanges s).env = s.env := by
  by_cases h : s.trk.changes = 0x00#8
  · rw [reactToChanges_of_unchanged h]
    exact ⟨rfl, rfl, rfl, rfl, rfl⟩
  · rw [reactToChanges_of_changed h]
    exact ⟨rfl, rfl, rfl, rfl, rfl⟩

/-- Settles O36: the detection comes first, and its mask decides whether the histories, the mirror and the snapshot
follow. -/
theorem trkPollResult : Obligations.TrkPollResult := by
  intro s v m t
  obtain ⟨hruns, hfaults⟩ := exec_of_isRunningCommand (i := .trkPoll) (by simp [IsRunningCommand]) s
  rw [encode_trkPoll] at hfaults
  have ht : t = setCmdHost 0x000A#16 s.host (reactToChanges (sampleAndDetect s)) := encode_trkPoll ▸ trkPoll_eq s
  obtain ⟨hprev, hcur, hchanges, hchg, henv⟩ := reactToChanges_keeps (sampleAndDetect s)
  refine ⟨hruns, hfaults, fun hwf => ?_⟩
  clear_value t
  subst ht
  refine ⟨hprev, hcur, hchanges, hchg, henv, fun hm => ?_, fun hm => ?_⟩
  · have hunchanged : sampleAndDetect s = setChanges 0x00#8 (takeSample s) :=
      congrArg (setChanges · (takeSample s)) hm
    rw [reactToChanges_of_unchanged hm, hunchanged]
    rfl
  · rw [reactToChanges_of_changed hm]
    refine ⟨fun c ch hch => ⟨?_, ?_⟩, fun c hc => ⟨?_, ?_⟩, ?_, rfl⟩
    · exact (renderSnapshot_rend_get (pushHistories (sampleAndDetect s)) c).trans
        (if_pos (lt_nch_of_getElem? hch))
    · exact pushHistories_hist_toNat (s := sampleAndDetect s) hwf hch
    · exact pushHistories_hist_get_of_kept (s := sampleAndDetect s) (.inl hc)
    · exact (renderSnapshot_rend_get (pushHistories (sampleAndDetect s)) c).trans (if_neg (Nat.not_lt.2 hc))
    · have hflag : decide (m ≠ 0#8) = true := decide_eq_true hm
      rw [← hflag]
      rfl

/-- The split commands are the iteration but for `CUR_CMD`, which holds the word of the last of them (R108). -/
theorem execAll_split_eq (hrun : s.trk.trkRun = true) : ∃ w,
    execAll (if (sampleAndDetect s).trk.changes = 0x00#8 then [.trkSample, .trkDetect]
      else [.trkSample, .trkDetect, .trkApply, .trkRender]) s =
      .next (setCmdHost w s.host (reactToChanges (sampleAndDetect s))) := by
  have hdetect (is : List Instr) : execAll (.trkSample :: .trkDetect :: is) s =
      execAll is (setCmdHost (encode .trkDetect) s.host (sampleAndDetect s)) := by
    rw [execAll_cons_of_legal (i := .trkSample) hrun,
      execAll_cons_of_legal (i := .trkDetect) (s := hardwareExec .trkSample s) hrun, trkDetect_trkSample_eq]
  by_cases hm : (sampleAndDetect s).trk.changes = 0x00#8
  · rw [if_pos hm, hdetect, reactToChanges_of_unchanged hm]
    exact ⟨_, rfl⟩
  · generalize hu : setCmdHost (encode .trkDetect) s.host (sampleAndDetect s) = u at hdetect
    have happly : legalIn .trkApply u = true := by subst hu; exact hrun
    have hrender : legalIn .trkRender (hardwareExec .trkApply u) = true :=
      (trkFrame_hardwareExec u (by simp [IsTrkCommand])).run_kept happly
    rw [if_neg hm, hdetect, execAll_cons_of_legal happly, execAll_cons_of_legal hrender, ← hu,
      trkRender_trkApply_eq _ _ hm]
    exact ⟨_, rfl⟩

/-- Settles O37: the poll and the split commands are the same iteration but for `CUR_CMD`. -/
theorem pollEqualsTheSplitCommands : Obligations.PollEqualsTheSplitCommands := by
  intro s hrun
  have hpoll : exec .trkPoll s =
      .next (setCmdHost (encode .trkPoll) s.host (reactToChanges (sampleAndDetect s))) :=
    (exec_of_legal (i := .trkPoll) hrun).trans (congrArg _ (trkPoll_eq s))
  obtain ⟨-, -, hchanges, -⟩ := reactToChanges_keeps (sampleAndDetect s)
  obtain ⟨w, hsplit⟩ := execAll_split_eq hrun
  rw [← hchanges] at hsplit
  exact ⟨_, _, hpoll, hsplit, rfl⟩

end Sys2Proof.Machine
end

section
/-! `TRK_INIT` as a whole command (42_signal_tracker.md R103): the first sample, the seeds, the snapshot and the
mirror. -/

namespace Sys2Proof.Machine

variable {s : State} {c : Fin 8} {ch : Chan}

/-! The inputs -/

theorem mem_channelPins (cfg : Cfg) (c : Fin 8) : c ∈ channelPins cfg ↔ c.val < cfg.nch := by
  have hall : c ∈ ([0, 1, 2, 3, 4, 5, 6, 7] : List (Fin 8)) := by
    revert c
    decide
  simp only [channelPins, List.mem_filter, hall, true_and, decide_eq_true_eq]

/-- The directions with the listed pins made inputs. -/
def dirsWithInputs (cs : List (Fin 8)) (dirs : Vector Dir 8) : Vector Dir 8 :=
  cs.foldl (fun dirs c => dirs.set c.val .input) dirs

theorem dirsWithInputs_get (cs : List (Fin 8)) (dirs : Vector Dir 8) (c : Fin 8) :
    (dirsWithInputs cs dirs)[c] = if c ∈ cs then .input else dirs[c] := by
  induction cs generalizing dirs with
  | nil => rfl
  | cons d cs ih =>
    refine (ih _).trans ?_
    by_cases hc : c ∈ cs
    · rw [if_pos hc, if_pos (List.mem_cons_of_mem d hc)]
    · simp [Vector.getElem_set, hc, Fin.ext_iff, eq_comm]

/-- The configuration of the inputs sets their directions, with one event each, and nothing else (R103). -/
theorem configureInputs_eq (s : State) : configureInputs s = { s with
    trk := { s.trk with inDir := dirsWithInputs (channelPins s.cfg) s.trk.inDir }
    trace := s.trace ++ (channelPins s.cfg).map fun c => .dir (.trkIn c) .input } := by
  unfold configureInputs
  generalize channelPins s.cfg = cs
  induction cs generalizing s with
  | nil => simp [dirsWithInputs]
  | cons c cs ih =>
    rw [List.foldl_cons, ih]
    simp [pinDir, emit, setDir, dirsWithInputs]

/-! The sample and the seeds -/

/-- Bit `c` of a masked sample: the level drawn for the channel, if there is one (R33). -/
theorem maskedSample_bit (s : State) (c : Fin 8) :
    (maskedSample s).getLsbD c.val = (decide (c.val < s.cfg.nch) && (drawTrk s.env).1.getLsbD c.val) := by
  rw [maskedSample, BitVec.getLsbD_and, chMask_bit _ _ c.isLt, Bool.and_comm]

/-- A configured channel's bit of a masked sample is the level drawn for it. -/
theorem maskedSample_bit_of_channel (hch : s.cfg.channels[c.val]? = some ch) :
    (maskedSample s).getLsbD c.val = (drawTrk s.env).1.getLsbD c.val := by
  rw [maskedSample_bit, decide_eq_true (lt_nch_of_getElem? hch), Bool.true_and]

/-- The histories `TRK_INIT` seeds from its sample (R103). -/
def seededHist (s : State) : Vector Word 8 :=
  updateBank s.cfg (fun c ch _ => seed ((maskedSample s).getLsbD c.val) ch.width) s.trk.hist

theorem seededHist_get (hch : s.cfg.channels[c.val]? = some ch) :
    (seededHist s)[c] = seed ((drawTrk s.env).1.getLsbD c.val) ch.width := by
  rw [seededHist, updateBank_get, hch]
  exact congrArg (seed · ch.width) (maskedSample_bit_of_channel hch)

theorem seededHist_get_of_absent (hc : s.cfg.nch ≤ c.val) : (seededHist s)[c] = s.trk.hist[c] := by
  have hnone : s.cfg.channels[c.val]? = none := List.getElem?_eq_none hc
  rw [seededHist, updateBank_get, hnone]

/-- `TRK_INIT` before it configures the mirror, as one update (R103). -/
theorem trkInitSnapshot_eq (s : State) : trkInitSnapshot s = { s with
    curCmd := 0x0005#16
    trk := { s.trk with
      cur := maskedSample s, prev := maskedSample s, changes := 0#8, chg := false, rendValid := true
      hist := seededHist s, rend := updateBank s.cfg (fun c _ _ => (seededHist s)[c]) s.trk.rend
      inDir := dirsWithInputs (channelPins s.cfg) s.trk.inDir }
    env := (drawTrk s.env).2
    trace := s.trace ++ ((channelPins s.cfg).map fun c => .dir (.trkIn c) .input)
      ++ [.sampleAll (drawTrk s.env).1] } := by
  rw [trkInitSnapshot, configureInputs_eq, encode_trkInit]
  rfl

/-! The mirror -/

/-- The mirror's pins become outputs after their latches are written (R103, D11). -/
theorem configureMirror_eq_fields (s : State) : configureMirror s = { s with
    trk := { s.trk with
      out0Lat := if s.cfg.mirrorEn then newestBit s.cfg.mirrorSrc0 s else s.trk.out0Lat
      out1Lat := if s.cfg.mirrorEn then newestBit s.cfg.mirrorSrc1 s else s.trk.out1Lat
      out0Dir := if s.cfg.mirrorEn then .output else s.trk.out0Dir
      out1Dir := if s.cfg.mirrorEn then .output else s.trk.out1Dir }
    trace := s.trace ++ (if s.cfg.mirrorEn then [.drive .trkOut0 (newestBit s.cfg.mirrorSrc0 s),
      .drive .trkOut1 (newestBit s.cfg.mirrorSrc1 s), .dir .trkOut0 .output, .dir .trkOut1 .output] else []) } := by
  unfold configureMirror
  split
  case isTrue hon => simp [mirrorUpdate_eq, hon, pinDir, emit, setDir]
  case isFalse hoff => simp

/-- Settles O31: the snapshot of `trkInitSnapshot_eq`, then the mirror, which reads its levels from the seeded histories
when there is one. -/
theorem trkInitResult : Obligations.TrkInitResult := by
  intro s t
  refine ⟨fun hstop => exec_of_legal (by simp [legalIn, hstop]), fun hrun => ?_, fun hwf => ?_⟩
  · rw [← encode_trkInit]
    exact exec_of_contractFault (i := .trkInit) (by simp [contractFault, trkInitFault, hrun])
  have ht : t = setTrkRun (configureMirror (trkInitSnapshot s)) := trkInitEffect_eq s
  rw [configureMirror_eq_fields, trkInitSnapshot_eq] at ht
  clear_value t
  subst ht
  refine ⟨maskedSample_bit s, rfl, rfl, rfl, rfl, rfl, fun c hc => ⟨?_, ?_, ?_⟩, fun c hc => ⟨?_, ?_, ?_⟩,
    fun hon => ?_, fun hoff => ?_, rfl, rfl, rfl, rfl, rfl, rfl, rfl, rfl⟩
  · have hch := List.getElem?_eq_getElem hc
    have hwidth := width_le_of_wf hwf hch
    rw [widthOf_of_getElem? hch, ← seed_toNat hwidth, ← seededHist_get hch]
    rfl
  · exact (updateBank_copy_get s.cfg (seededHist s) s.trk.rend c).trans (if_pos hc)
  · exact (dirsWithInputs_get _ _ c).trans (if_pos ((mem_channelPins s.cfg c).2 hc))
  · exact seededHist_get_of_absent hc
  · exact (updateBank_copy_get s.cfg (seededHist s) s.trk.rend c).trans (if_neg (Nat.not_lt.2 hc))
  · exact (dirsWithInputs_get _ _ c).trans (if_neg (mt (mem_channelPins s.cfg c).1 (Nat.not_lt.2 hc)))
  · exact ⟨if_pos hon, if_pos hon, if_pos hon, if_pos hon⟩
  · have hno : ¬ s.cfg.mirrorEn = true := Bool.not_eq_true _ ▸ hoff
    exact ⟨if_neg hno, if_neg hno, if_neg hno, if_neg hno⟩

end Sys2Proof.Machine
end

section
/-! What a history holds when only `TRK_POLL` drives the tracker (42_signal_tracker.md R110 to R112): the levels its
channel records, pushed one after another. -/

namespace Sys2Proof.Machine

variable {s : State} {c : Fin 8} {ch : Chan}

/-! Recorded levels -/

/-- The levels a channel of policy `p` records for the samples `bs`, `a` being the level before them: one for every
event, and 0 under `FALL` (R96, R98); `execAll_trkPolls` ties it to the machine. -/
def recordedLevels (p : EdgePolicy) (a : Level) : List Level → List Level
  | [] => []
  | b :: bs =>
    if event p a b then (decide (p = .any) && b) :: recordedLevels p b bs else recordedLevels p b bs

/-- A history of width `width` after it records the levels, the first one first (R99). -/
def pushAll (width : Nat) (h : Word) (levels : List Level) : Word := levels.foldl (fun h l => push h l width) h

theorem recordedLevels_cons (p : EdgePolicy) (a b : Level) (bs : List Level) :
    recordedLevels p a (b :: bs) = recordedLevels p a [b] ++ recordedLevels p b bs := by
  rw [recordedLevels, recordedLevels]
  split <;> rfl

/-- The any-transition channel records a level exactly when it differs from the last. -/
theorem recordedLevels_any_singleton (a b : Level) : recordedLevels .any a [b] = if a = b then [] else [b] := by
  cases a <;> cases b <;> rfl

theorem pushAll_singleton (width : Nat) (h : Word) (l : Level) : pushAll width h [l] = push h l width := rfl

theorem pushAll_append (width : Nat) (h : Word) (ls ms : List Level) :
    pushAll width h (ls ++ ms) = pushAll width (pushAll width h ls) ms :=
  List.foldl_append

/-- A falling-edge channel records a 0 for every fall. -/
theorem recordedLevels_fall (a : Level) (bs : List Level) :
    recordedLevels .fall a bs = List.replicate (fallsAfter a bs) false := by
  induction bs generalizing a with
  | nil => rfl
  | cons b bs ih =>
    have hevent : event .fall a b = (a && !b) := rfl
    rw [recordedLevels, fallsAfter, hevent, ih]
    split
    · rw [Nat.one_add, List.replicate_succ]
      rfl
    · rw [Nat.zero_add]

/-- The any-transition channel records every one of alternating samples. -/
theorem recordedLevels_any_of_alternates {a : Level} {bs : List Level} (h : alternates a bs = true) :
    recordedLevels .any a bs = bs := by
  induction bs generalizing a with
  | nil => rfl
  | cons b bs ih =>
    obtain ⟨hne, hrest⟩ := Bool.and_eq_true_iff.1 h
    have hevent : event .any a b = true := by rwa [event, Bool.xor_comm]
    rw [recordedLevels, if_pos hevent, ih hrest]
    rfl

/-- Alternating samples are, in turn, the opposite of the level before them and that level. -/
theorem alternates_getD {a : Level} {bs : List Level} (h : alternates a bs = true) {j : Nat} (hj : j < bs.length) :
    bs.getD j false = (a != decide (j % 2 = 0)) := by
  induction bs generalizing a j with
  | nil => exact absurd hj (Nat.not_lt_zero j)
  | cons b bs ih =>
    obtain ⟨hne, hrest⟩ := Bool.and_eq_true_iff.1 h
    obtain rfl : b = !a := by simpa [bne_iff_ne, Bool.eq_not] using hne
    cases j with
    | zero => simp
    | succ j =>
      have hparity : decide ((j + 1) % 2 = 0) = !decide (j % 2 = 0) := by
        rw [← decide_not, decide_eq_decide]
        omega
      rw [List.getD_cons_succ, ih hrest (Nat.lt_of_succ_lt_succ hj), hparity]
      cases a <;> simp

/-- Every recorded 0 doubles the history, in its width. -/
theorem pushAll_replicate_false {width : Nat} (hwidth : width ≤ 16) {h : Word} (hh : h.toNat < 2 ^ width) (k : Nat) :
    (pushAll width h (List.replicate k false)).toNat = h.toNat * 2 ^ k % 2 ^ width := by
  induction k generalizing h with
  | zero => simp [pushAll, Nat.mod_eq_of_lt hh]
  | succ k ih =>
    calc (pushAll width h (List.replicate (k + 1) false)).toNat
        = (push h false width).toNat * 2 ^ k % 2 ^ width := ih (push_lt h false width)
      _ = h.toNat * 2 ^ (k + 1) % 2 ^ width := by
        rw [push_toNat hwidth, Bool.toNat_false, Nat.add_zero, Nat.mod_mul_mod, pow_succ, Nat.mul_comm 2, Nat.mul_assoc,
          Nat.mul_comm 2]

theorem pushAll_lt {width : Nat} {h : Word} (hh : h.toNat < 2 ^ width) (levels : List Level) :
    (pushAll width h levels).toNat < 2 ^ width := by
  induction levels generalizing h with
  | nil => exact hh
  | cons l levels ih => exact ih (push_lt h l width)

/-- The level recorded last stands in bit 0, the one before it in bit 1, and so on (R99). -/
theorem pushAll_bit {width : Nat} (hwidth : width ≤ 16) (h : Word) (levels : List Level) {n : Nat} (hn : n < width)
    (hlen : n < levels.length) : (pushAll width h levels).getLsbD n = levels.reverse.getD n false := by
  induction levels using List.reverseRecOn generalizing n with
  | nil => exact absurd hlen (Nat.not_lt_zero n)
  | append_singleton levels l ih =>
    have hbits : n < 16 ∧ n < width := ⟨by omega, hn⟩
    rw [pushAll, List.foldl_concat, push_bit, decide_eq_true hbits, Bool.true_and, List.reverse_concat]
    cases n with
    | zero => rfl
    | succ n => simpa [pushAll] using ih (by omega) (by simpa using hlen)

/-- The oldest of `W` recorded levels stands in bit `W - 1`. -/
theorem pushAll_bit_of_length {width : Nat} (hwidth : width ≤ 16) (h : Word) {levels : List Level}
    (hlen : levels.length = width) {j : Nat} (hj : j < width) :
    (pushAll width h levels).getLsbD (width - 1 - j) = levels.getD j false := by
  rw [pushAll_bit hwidth h levels (by omega) (by omega), List.getD_reverse _ (by omega), hlen]
  congr 1
  omega

/-! One command -/

/-- The bits of a seed are its level (R100). -/
theorem seed_bit (l : Level) (width n : Nat) : (seed l width).getLsbD n = (decide (n < 16 ∧ n < width) && l) := by
  cases l
  · simp [seed]
  · simp [seed, onesWord_bit]

/-- `TRK_INIT` draws one sample and seeds a channel from its level in it (R100, R103). -/
theorem trkInit_channel (s : State) (hch : s.cfg.channels[c.val]? = some ch) :
    (hardwareExec .trkInit s).env = (drawTrk s.env).2 ∧
      (hardwareExec .trkInit s).trk.cur.getLsbD c.val = (drawTrk s.env).1.getLsbD c.val ∧
      (hardwareExec .trkInit s).trk.hist[c] = seed ((drawTrk s.env).1.getLsbD c.val) ch.width := by
  have ht : hardwareExec .trkInit s = setTrkRun (configureMirror (trkInitSnapshot s)) := trkInitEffect_eq s
  rw [ht, configureMirror_eq_fields, trkInitSnapshot_eq]
  exact ⟨rfl, maskedSample_bit_of_channel hch, seededHist_get hch⟩

/-- An iteration shifts a flagged channel's history and keeps an unflagged one's, whether or not any other changed. -/
theorem reactToChanges_hist_get (hch : s.cfg.channels[c.val]? = some ch) :
    (reactToChanges s).trk.hist[c] = if s.trk.changes.getLsbD c.val then
      push s.trk.hist[c] (newlevel ch.policy c.val s.trk.cur) ch.width else s.trk.hist[c] := by
  by_cases hm : s.trk.changes = 0x00#8
  · have hflag : s.trk.changes.getLsbD c.val = false := by rw [hm, BitVec.getLsbD_zero]
    rw [reactToChanges_of_unchanged hm, hflag, if_neg Bool.false_ne_true]
  · rw [reactToChanges_of_changed hm]
    exact pushHistories_hist_get hch

/-- `TRK_POLL` draws one sample and pushes what a channel records of its level in it, if anything (R97 to R99,
R108). -/
theorem trkPoll_channel (s : State) (hch : s.cfg.channels[c.val]? = some ch) :
    (hardwareExec .trkPoll s).env = (drawTrk s.env).2 ∧
      (hardwareExec .trkPoll s).trk.cur.getLsbD c.val = (drawTrk s.env).1.getLsbD c.val ∧
      (hardwareExec .trkPoll s).trk.hist[c] = pushAll ch.width s.trk.hist[c]
        (recordedLevels ch.policy (s.trk.cur.getLsbD c.val) [(drawTrk s.env).1.getLsbD c.val]) := by
  have hlevel : (maskedSample s).getLsbD c.val = (drawTrk s.env).1.getLsbD c.val :=
    maskedSample_bit_of_channel hch
  have hflag : (sampleAndDetect s).trk.changes.getLsbD c.val =
      event ch.policy (s.trk.cur.getLsbD c.val) ((drawTrk s.env).1.getLsbD c.val) := by
    have hevent := detect_bit s.cfg s.trk.cur (maskedSample s) c
    rwa [hch, hlevel] at hevent
  have hnew : newlevel ch.policy c.val (maskedSample s) =
      (decide (ch.policy = .any) && (drawTrk s.env).1.getLsbD c.val) := by
    rw [← hlevel]
    cases ch.policy <;> rfl
  obtain ⟨-, hcur, -, -, henv⟩ := reactToChanges_keeps (sampleAndDetect s)
  rw [trkPoll_eq]
  refine ⟨henv, (congrArg (BitVec.getLsbD · c.val) hcur).trans hlevel,
    (reactToChanges_hist_get (s := sampleAndDetect s) hch).trans ?_⟩
  have hsampled : (sampleAndDetect s).trk.cur = maskedSample s := rfl
  rw [hflag, hsampled, hnew, recordedLevels]
  split <;> rfl

/-- A command that leaves no fault ran as the hardware runs it. -/
theorem eq_hardwareExec_of_fault_none {i : Instr} {s t : State} (hexec : exec i s = .next t)
    (hfault : t.fault = none) : t = hardwareExec i s := by
  obtain ⟨-, ht⟩ | ⟨f, rfl⟩ := exec_next_cases hexec
  · exact ht
  · cases hfault

/-- Settles O39: the seed shows the sampled level, and a poll pushes the level exactly when it differs from the last. -/
theorem anyChannelHistoryShowsTheSampledLevel : Obligations.AnyChannelHistoryShowsTheSampledLevel := by
  intro s t c ch hwf _ hch hany
  obtain ⟨-, hwidths, -⟩ := s.cfg.wf_iff.1 hwf
  obtain ⟨hpos, hwidth⟩ := hwidths ch (List.mem_of_getElem? hch)
  refine ⟨fun hexec hfault => ?_, fun hexec hfault hshown => ?_⟩
  · obtain ⟨-, hcur, hhist⟩ := trkInit_channel s hch
    rw [eq_hardwareExec_of_fault_none hexec hfault, hcur, hhist, seed_bit, decide_eq_true ⟨by omega, hpos⟩,
      Bool.true_and]
  · obtain ⟨-, hcur, hhist⟩ := trkPoll_channel s hch
    rw [eq_hardwareExec_of_fault_none hexec hfault, hcur, hhist, hany, recordedLevels_any_singleton]
    split
    case isTrue hsame => exact hshown.trans hsame
    case isFalse => rw [pushAll_singleton, push_bit, decide_eq_true ⟨by omega, hpos⟩, if_pos rfl, Bool.true_and]

/-! Any number of polls -/

theorem drawSamples_length (n : Nat) (e : Env) : (drawSamples n e).1.length = n := by
  induction n generalizing e with
  | zero => rfl
  | succ n ih => exact congrArg Nat.succ (ih _)

/-- After any number of polls a channel's history holds, pushed onto the one before them, the levels it recorded of the
samples (R110). -/
theorem execAll_trkPolls (n : Nat) (hrun : s.trk.trkRun = true) (hch : s.cfg.channels[c.val]? = some ch) :
    ∃ t, execAll (List.replicate n .trkPoll) s = .next t ∧ t.trk.hist[c] = pushAll ch.width s.trk.hist[c]
      (recordedLevels ch.policy (s.trk.cur.getLsbD c.val)
        ((drawSamples n s.env).1.map fun v => v.getLsbD c.val)) := by
  induction n generalizing s with
  | zero => exact ⟨s, rfl, rfl⟩
  | succ n ih =>
    have hframe := trkFrame_hardwareExec s (i := .trkPoll) (by simp [IsTrkCommand])
    obtain ⟨henv, hcur, hhist⟩ := trkPoll_channel s hch
    obtain ⟨t, hpolls, ht⟩ := ih (s := hardwareExec .trkPoll s) (hframe.run_kept hrun) (hframe.cfg.symm ▸ hch)
    refine ⟨t, (execAll_cons_of_legal (i := .trkPoll) hrun _).trans hpolls, ?_⟩
    rw [ht, hcur, hhist, henv, ← pushAll_append, ← recordedLevels_cons, drawSamples, List.map_cons]

/-- Settles O40: a falling-edge channel records a 0 for every fall, and a recorded 0 doubles the history. -/
theorem fallChannelHistoryCountsTheFalls : Obligations.FallChannelHistoryCountsTheFalls := by
  intro s n c ch hwf hrun hch hfall hbound
  obtain ⟨t, hpolls, hhist⟩ := execAll_trkPolls n hrun hch
  refine ⟨t, hpolls, ?_⟩
  rw [hhist, hfall, recordedLevels_fall, pushAll_replicate_false (width_le_of_wf hwf hch) hbound]

/-- Settles O41: the any-transition channel records all the samples, which push the seed out of the history. -/
theorem alternatingSamplesGiveTheAlternatingPattern : Obligations.AlternatingSamplesGiveTheAlternatingPattern := by
  intro s c ch v vs e hwf hstop hch hany hdraw halt
  obtain ⟨hv, hvs⟩ : (drawTrk s.env).1 = v ∧ (drawSamples ch.width (drawTrk s.env).2).1 = vs := by
    simpa [drawSamples] using congrArg Prod.fst hdraw
  have hframe := trkFrame_hardwareExec s (i := .trkInit) (by simp [IsTrkCommand])
  obtain ⟨henv, hcur, hhist⟩ := trkInit_channel s hch
  have hrun : (hardwareExec .trkInit s).trk.trkRun = true := rfl
  obtain ⟨t, hpolls, ht⟩ := execAll_trkPolls ch.width hrun (hframe.cfg.symm ▸ hch)
  have hwidth := width_le_of_wf hwf hch
  have hlen : (vs.map fun u => u.getLsbD c.val).length = ch.width := by
    rw [List.length_map, ← hvs, drawSamples_length]
  rw [hcur, hhist, henv, hvs, hv, hany, recordedLevels_any_of_alternates halt] at ht
  refine ⟨t, (execAll_cons_of_legal (i := .trkInit) (by simp [legalIn, hstop]) _).trans hpolls, ?_, fun j hj => ?_⟩
  · rw [ht]
    exact pushAll_lt (seed_lt _ _) _
  · rw [ht, pushAll_bit_of_length hwidth _ hlen hj, alternates_getD halt (by omega)]

end Sys2Proof.Machine
end

section
/-! Faults (60_exceptions.md R114 to R125): their codes and words, that they are precise in the whole command and in its
acceptance cycle alike, and that only a reset leaves them. -/

namespace Sys2Proof.Machine

variable {s : State}

/-- Settles O43: the codes and the recorded word are those of R114 by definition. -/
theorem faultCodesAndWords : Obligations.FaultCodesAndWords := fun _ => rfl

/-- The hardware records no model fault (R115 to R122). -/
theorem hardwareExec_fault (i : Instr) (s : State) : (hardwareExec i s).fault = s.fault := by
  obtain rfl | rfl | rfl | ⟨out, rfl⟩ | hi := hold_cases i
  · rfl
  · rfl
  · rfl
  · rw [hardwareExec, spiXferEffect_eq]
  · exact (holdless_hardwareExec hi).fault

/-- Settles O44: the contract checks of the command decide between its fault and the hardware's run. -/
theorem faultsArePrecise : Obligations.FaultsArePrecise := by
  intro i s
  cases hlegal : legalIn i s
  · exact .inl (exec_of_illegal hlegal)
  · exact .inr ⟨exec_of_legal hlegal, hardwareExec_fault i s⟩

/-- A command is illegal exactly when one of its contract checks fails. -/
theorem legalIn_eq_false_iff (i : Instr) (s : State) :
    legalIn i s = false ↔ ∃ f, contractFault i s = some f := by
  rw [← Bool.not_eq_true, ← contractFault_eq_none_iff, ← ne_eq, Option.ne_none_iff_exists']

/-- A checked effect that records no fault itself records exactly the fault of its check (R124). -/
theorem faultOr_eq_fault_iff {c : Option Fault} {e : State → State} {f : Fault} (hfault : s.fault = none)
    (heffect : (e s).fault = s.fault) : faultOr c e s = .next { s with fault := some f } ↔ c = some f := by
  cases c with
  | none =>
    have hdiffer : e s ≠ { s with fault := some f } := fun heq => by simp [heq, hfault] at heffect
    simp [hdiffer]
  | some g => simp [raiseFault]

/-- Settles O54: the whole command and its acceptance cycle have the same contract checks, and the effect of neither
records a fault. -/
theorem acceptanceRaisesTheSameFaults : Obligations.AcceptanceRaisesTheSameFaults := by
  intro i s hfault
  have hstart (f : Fault) : startCommand i s = .next { s with fault := some f } ↔ contractFault i s = some f := by
    rw [startCommand_eq_faultOr]
    exact faultOr_eq_fault_iff hfault (acceptEffect_curCmd_fault i s).2
  have hexec (f : Fault) : exec i s = .next { s with fault := some f } ↔ contractFault i s = some f := by
    rw [exec_eq_faultOr]
    exact faultOr_eq_fault_iff hfault (hardwareExec_fault i s)
  exact ⟨(legalIn_eq_false_iff i s).trans (exists_congr hstart).symm, fun f => (hstart f).trans (hexec f).symm⟩

/-- A state with a fault recorded stops with it at any access but a reset, whatever an issued command would do
(R124, log 4). -/
theorem hostStep_of_fault (run : Instr → State → Answer) {f : Fault} (hwf : s.cfg.wf = true)
    (hfault : s.fault = some f) (hno : ∀ rest, s.host.queue ≠ .reset :: rest) : hostStep run s = .fault f := by
  rw [hostStep, if_pos hwf]
  rcases hqueue : s.host.queue with _ | ⟨_ | _ | _, rest⟩
  case cons.reset => exact absurd hqueue (hno rest)
  all_goals rw [hfault]

/-- Settles O45: of the ways a step answers a next state (`hostStep_cases`) only the reset needs no `FAULT` = none, and
it sets `FAULT` to none. -/
theorem onlyResetLeavesAFault : Obligations.OnlyResetLeavesAFault := by
  intro s f hwf hfault
  refine ⟨fun hno => ⟨hostStep_of_fault exec hwf hfault hno, hostStep_of_fault startCommand hwf hfault hno⟩,
    fun t hstep => ?_⟩
  obtain ⟨-, ⟨rest, hqueue, rfl⟩ | ⟨hnone, -⟩⟩ := hostStep_cases hstep
  · exact ⟨⟨rest, hqueue⟩, rfl⟩
  · cases hfault.symm.trans hnone

end Sys2Proof.Machine
end

section
/-! Every running command ends (20_memory.md R56, 60_exceptions.md R135, 70_reset_and_hazards.md R150): the cycles it
has left are bounded, and in the last of them it commits. -/

namespace Sys2Proof.Machine

variable {s : State}

/-! How many cycles are left -/

/-- A phase that is under way has a cycle left. -/
theorem phaseLeft_pos (settle : Nat) (u : SpiUnit) : 0 < phaseLeft settle u := by
  unfold phaseLeft
  split <;> bv_omega

/-- A phase has at most its action and its hold left (R94). -/
theorem phaseLeft_le {settle : Nat} {u : SpiUnit} (hbound : u.holdCnt.toNat ≤ settle) :
    phaseLeft settle u ≤ 1 + settle := by
  unfold phaseLeft
  split <;> omega

/-- The phase a transfer is in is one of 24 (R84). -/
theorem phasesAfter_le (u : SpiUnit) : phasesAfter u ≤ 23 := by
  have hbits : u.bitCnt.toNat < 8 := u.bitCnt.isLt
  unfold phasesAfter
  split <;> omega

/-- A running command has a cycle left. -/
theorem cyclesLeft_pos (hok : s.RunningOk) : 0 < cyclesLeft s := by
  obtain hcmd | hcmd | ⟨out, hcmd⟩ := hok.command
  · obtain ⟨-, -, -, -, hcnt⟩ := (runningOk_of_spiBegin hcmd).1 hok
    rw [cyclesLeft_of_spiBegin hcmd]
    bv_omega
  · obtain ⟨-, -, -, -, hcnt⟩ := (runningOk_of_spiEnd hcmd).1 hok
    rw [cyclesLeft_of_spiEnd hcmd]
    bv_omega
  · rw [cyclesLeft_of_spiXfer hcmd]
    exact Nat.add_pos_right _ (phaseLeft_pos _ _)

/-- A running command has at most the 24 phases of a transfer left (R135, R150). -/
theorem cyclesLeft_le (hok : s.RunningOk) (hbound : s.spi.holdCnt.toNat ≤ s.cfg.settleCycles) :
    cyclesLeft s ≤ 24 * (1 + s.cfg.settleCycles) := by
  obtain hcmd | hcmd | ⟨out, hcmd⟩ := hok.command
  · rw [cyclesLeft_of_spiBegin hcmd]
    omega
  · rw [cyclesLeft_of_spiEnd hcmd]
    omega
  · rw [cyclesLeft_of_spiXfer hcmd]
    calc phasesAfter s.spi * (1 + s.cfg.settleCycles) + phaseLeft s.cfg.settleCycles s.spi
        ≤ 23 * (1 + s.cfg.settleCycles) + (1 + s.cfg.settleCycles) :=
          Nat.add_le_add (Nat.mul_le_mul_right _ (phasesAfter_le _)) (phaseLeft_le hbound)
      _ = 24 * (1 + s.cfg.settleCycles) := (Nat.succ_mul _ _).symm

/-! The last cycle -/

/-- The last cycle of a hold does what follows the hold. -/
theorem countHold_of_last (done : State → State) (hcnt : s.spi.holdCnt.toNat = 1) :
    countHold done s = done (setHoldCnt 0#16 s) :=
  if_pos hcnt.le

/-- A transfer in its last cycle is in the last cycle of the hold of `P_LOW` of bit 0 (R94). -/
theorem lastCycle_of_spiXfer {out : Byte} (hwf : s.cfg.wf = true) (hcmd : decode s.curCmd = .command (.spiXfer out))
    (hlast : cyclesLeft s = 1) : s.spi.holdCnt.toNat = 1 ∧ s.spi.phase = .low ∧ s.spi.bitCnt = 0#3 := by
  obtain ⟨-, -, -, -, ⟨hpos, -⟩, -⟩ := s.cfg.wf_iff.1 hwf
  have hleft := phaseLeft_pos s.cfg.settleCycles s.spi
  rw [cyclesLeft_of_spiXfer hcmd] at hlast
  have hnone : phasesAfter s.spi = 0 :=
    (Nat.mul_eq_zero.1 (by omega : phasesAfter s.spi * (1 + s.cfg.settleCycles) = 0)).resolve_right (by omega)
  rw [hnone, Nat.zero_mul, Nat.zero_add, phaseLeft] at hlast
  refine ⟨?_, ?_⟩
  · split at hlast <;> omega
  · cases hp : s.spi.phase
    case drive => simp [phasesAfter_drive hp] at hnone
    case high => simp [phasesAfter_high hp] at hnone
    case low =>
      rw [phasesAfter_low hp] at hnone
      exact ⟨rfl, by bv_omega⟩

/-- The end of the hold of `P_LOW` of bit 0 commits the transfer (R94). -/
theorem phaseDone_of_lastBit (hphase : s.spi.phase = .low) (hbit : s.spi.bitCnt = 0#3) :
    phaseDone s = toIdle (commitRx (shiftOut s)) := by
  simp [phaseDone, hphase, hbit]

/-- In its last cycle a running command commits, and the sequencer is idle (R94). -/
theorem advance_seq_of_lastCycle (hwf : s.cfg.wf = true) (hrun : s.seq = .run) (hok : s.RunningOk)
    (hlast : cyclesLeft s = 1) : (advance s).seq = .idle := by
  obtain hcmd | hcmd | ⟨out, hcmd⟩ := hok.command
  · rw [cyclesLeft_of_spiBegin hcmd] at hlast
    rw [advance_of_spiBegin hrun hcmd, countHold_of_last _ hlast]
    rfl
  · rw [cyclesLeft_of_spiEnd hcmd] at hlast
    rw [advance_of_spiEnd hrun hcmd, countHold_of_last _ hlast]
    rfl
  · obtain ⟨hcnt, hphase, hbit⟩ := lastCycle_of_spiXfer hwf hcmd hlast
    have hcounting : s.spi.holdCnt ≠ 0#16 := by bv_omega
    rw [advance_of_transfer hrun hcmd, xferCycle, if_neg hcounting, countHold_of_last _ hcnt,
      phaseDone_of_lastBit (s := setHoldCnt 0#16 s) hphase hbit]
    rfl

/-! All the cycles left -/

/-- The sequencer is idle once a running command has taken the cycles it has left. -/
theorem advanceN_cyclesLeft_seq (h : s.Inv) (hrun : s.seq = .run) : (advanceN (cyclesLeft s) s).seq = .idle := by
  induction hn : cyclesLeft s generalizing s with
  | zero => exact absurd hn (cyclesLeft_pos (h.spi.running_ok hrun)).ne'
  | succ n ih =>
    rw [advanceN]
    by_cases hlast : n = 0
    · subst hlast
      exact advance_seq_of_lastCycle h.config hrun (h.spi.running_ok hrun) hn
    · obtain ⟨huncommitted, hleft⟩ := countsDown_advance h.config hrun (by omega)
      exact ih (inv_advance h) huncommitted.running (by omega)

/-- The cycles of the sequencer leave the host's side and `FAULT`. -/
theorem advanceN_host_fault (n : Nat) (s : State) :
    (advanceN n s).host = s.host ∧ (advanceN n s).fault = s.fault := by
  induction n generalizing s with
  | zero => exact ⟨rfl, rfl⟩
  | succ n ih => simpa [advanceN] using ih (advance s)

/-- Settles O57: a running command commits after the cycles it has left, which are at most those of a transfer. -/
theorem everyCommandEnds : Obligations.EveryCommandEnds :=
  fun s h hrun => ⟨cyclesLeft s, cyclesLeft_le (h.spi.running_ok hrun) h.spi.hold_bound,
    advanceN_cyclesLeft_seq h hrun, advanceN_host_fault _ s⟩

end Sys2Proof.Machine
end

section
/-! Reset (70_reset_and_hazards.md R137, R138): both machines complete it from every state, and what the host and the
wires show of the reset state, whatever the configuration. -/

namespace Sys2Proof.Machine

variable {s : State}

/-- A reset completes in any state, running or faulted, and leaves the block at its reset values (R137). -/
theorem hostStep_of_reset (run : Instr → State → Answer) {rest : List HostAccess} (hwf : s.cfg.wf = true)
    (hqueue : s.host.queue = .reset :: rest) : hostStep run s = .next (setQueue rest (resetBlock s)) := by
  simp [hostStep, hwf, hqueue, hostAccess]

/-- After reset every pin is an input (R138). -/
theorem pinDirOf_resetWith (p : Pin) (cfg : Cfg) (env : Env) (host : HostPort) :
    pinDirOf p (State.resetWith cfg env host) = .input := by
  cases p
  case trkIn c => exact Vector.getElem_replicate c.isLt
  all_goals rfl

/-- A file at its reset value reads 0 in every slot, whether the channel exists or not. -/
theorem bankRead_replicate_zero (cfg : Cfg) (c : Fin 8) : bankRead cfg (Vector.replicate 8 0#16) c = 0#16 := by
  obtain hc | hc := Nat.lt_or_ge c.val cfg.nch
  · exact (bankRead_of_lt hc _).trans (Vector.getElem_replicate c.isLt)
  · exact bankRead_of_ge hc _

/-- STATUS reads 0 after reset: no field is set (R18). -/
theorem statusWord_resetWith (cfg : Cfg) (env : Env) (host : HostPort) :
    statusWord (State.resetWith cfg env host) = 0#16 := by
  simp [statusWord, busy, State.resetWith, SpiUnit.reset, TrkUnit.reset, fieldBit]

/-- PINS reads 0 after reset: no latch is set and no output is enabled (R27). -/
theorem pinsWord_resetWith (cfg : Cfg) (env : Env) (host : HostPort) :
    pinsWord (State.resetWith cfg env host) = 0#16 := by
  simp [pinsWord, spiOe, trkOe, State.resetWith, SpiUnit.reset, TrkUnit.reset, fieldBit]

/-- After reset every register reads 0 but the configuration registers (R48, R137). -/
theorem readReg_resetWith (cfg : Cfg) (env : Env) (host : HostPort) {a : Addr}
    (ha : a.toNat ≤ 0x06 ∨ (0x08 ≤ a.toNat ∧ a.toNat < 0x18)) : readReg a (State.resetWith cfg env host) = 0#16 := by
  have hreg : regAt a ≠ .cfg0 ∧ regAt a ≠ .cfg1 ∧ regAt a ≠ .cfg2 ∧ ∀ k, regAt a ≠ .widths k := by
    revert a
    decide
  obtain ⟨hcfg0, hcfg1, hcfg2, hwidths⟩ := hreg
  rw [readReg]
  cases h : regAt a
  case cfg0 => exact absurd h hcfg0
  case cfg1 => exact absurd h hcfg1
  case cfg2 => exact absurd h hcfg2
  case widths k => exact absurd h (hwidths k)
  case status => exact statusWord_resetWith cfg env host
  case pins => exact pinsWord_resetWith cfg env host
  case hist c | rend c => exact bankRead_replicate_zero cfg c
  all_goals rfl

/-- Settles O18: neither machine looks at the command in progress or at the fault before a reset, and the elements of
the state it leaves are the reset values by definition. -/
theorem resetSetsEveryElement : Obligations.ResetSetsEveryElement := by
  intro s rest hwf hqueue
  exact ⟨setQueue rest (resetBlock s), hostStep_of_reset exec hwf hqueue, hostStep_of_reset startCommand hwf hqueue,
    rfl, rfl, rfl, rfl, rfl, rfl, rfl, fun p => wireLevel_of_input (pinDirOf_resetWith p s.cfg s.env _),
    fun _ ha => readReg_resetWith s.cfg s.env _ ha⟩

/-- Settles O19: the default configuration is well formed, so its reset state has the invariant of every reset state. -/
theorem resetStateKeepsTheInvariant : Obligations.ResetStateKeepsTheInvariant :=
  ⟨inv_resetWith (by decide) _ _, fun _ ha => readReg_resetWith _ _ _ (.inl ha)⟩

end Sys2Proof.Machine
end
